-- ==== Sys2Proof/Word.lean ====
section
/-! DEFINITION. The word types of the Astilo 3208 (00_scope, TERMS: a word is 4 bytes, a line 8 words). -/

namespace Sys2Proof

/-- A 4-byte word; also the host address lines A31-A0 (00_scope, EXTERNAL LINES). -/
abbrev Word := BitVec 32
/-- One byte. -/
abbrev Byte := BitVec 8
/-- The byte lanes BE3-BE0 of one word (R16); bit k is lane k. -/
abbrev Lanes := BitVec 4
/-- A subset of the words 0-7 of a line, in the layout of a BEFORE record's mask (R104): bit k for word k. -/
abbrev WordSet := BitVec 8
/-- A transaction context; `0` is context 1 and `3` is context 4 (R37). -/
abbrev Ctx := Fin 4

/-- The number 1-4 by which the rules name a context. -/
def Ctx.number (c : Ctx) : Nat := c.val + 1

end Sys2Proof
end

