-- ==== Sys2Proof/Syntax.lean ====
section
/-! DEFINITION. The commands of the block: one constructor of `Instr` for each row of spec/opcode_table.json. -/

namespace Sys2Proof

/-- The burst length given on BLEN (R15). -/
inductive BurstLen where
  | one | four | eight
  deriving DecidableEq, Repr

/-- Number of beats (R15). -/
def BurstLen.beats : BurstLen → Nat
  | .one => 1
  | .four => 4
  | .eight => 8

/-- What the port takes of a READ cycle (R15). The lanes are taken and not examined (R16). -/
structure ReadCycle where
  addr : Word
  blen : BurstLen
  lanes : Lanes
  ctxLines : BitVec 3
  deriving DecidableEq, Repr

/-- What the port takes of a WRITE cycle (R15). The MARK line is taken and not examined. -/
structure WriteCycle where
  addr : Word
  blen : BurstLen
  lanes : Lanes
  ctxLines : BitVec 3
  mark : Bool
  /-- one data word for each beat, in beat order -/
  data : List Word
  deriving DecidableEq, Repr

/-- What the port takes of a MARK cycle (R15). Only address lines A10-A8 and A2-A0 are examined (R33). -/
structure MarkCycle where
  addr : Word
  blen : BurstLen
  lanes : Lanes
  ctxLines : BitVec 3
  deriving DecidableEq, Repr

/-- The strap levels MSEL1-0 and JSEL1-0 (00_scope, Straps). -/
structure Straps where
  msel : BitVec 2
  jsel : BitVec 2
  deriving DecidableEq, Repr

/-- A management frame as far as a command brings it: all that the master has clocked on MDI since MSS was asserted,
and whether MSS is negated then (R186). `bytes` are the whole bytes and `extraBits` the bits of a last byte of which
only some bits were clocked. A frame may come whole in one command, or in several (log 11). -/
structure Frame where
  bytes : List Byte
  extraBits : Fin 8
  ended : Bool
  deriving DecidableEq, Repr

/-- The commands. `straps` are the strap levels at that moment, read only where a start begins (R171). -/
inductive Instr where
  | hostRead (c : ReadCycle)
  | hostReadAccessComplete
  | hostWrite (c : WriteCycle)
  | openMark (m : MarkCycle)
  | commitMark (m : MarkCycle)
  | abandonMark (m : MarkCycle)
  | renewMark (m : MarkCycle)
  | queryMark (m : MarkCycle)
  | markBadTag (m : MarkCycle)
  | waitLimitExpiry
  | leaseExpiry (c : Ctx)
  | oldLineReadComplete
  | appendWriteComplete
  | dataWriteComplete
  | rollbackRecordReadComplete
  | restoreWriteComplete
  | headerReadComplete
  | anchorWriteComplete
  | refreshTimerExpiry
  | refreshComplete
  | selfRefreshEntryComplete (straps : Straps)
  | selfRefreshExitComplete
  | bringUpComplete
  | anchorReadComplete
  | scanLineReadComplete
  | pfwarnAsserted
  | pfwarnNegated (straps : Straps)
  | rstAsserted
  | rstReleased (straps : Straps)
  | powerOnComplete (straps : Straps)
  | managementReadFrame (f : Frame)
  | pendingTableWrite (f : Frame)
  | activeTableWrite (f : Frame)
  | applyRequest (f : Frame)
  | formatCommand (f : Frame)
  | holdCommand (f : Frame)
  | releaseCommand (f : Frame) (straps : Straps)
  | alertCausesClear (f : Frame)
  | alertMaskWrite (f : Frame)
  | settingWrite (f : Frame)
  | powerLoss
  | frameEndsBeforeCommandByte (bits : Fin 8)
  deriving DecidableEq, Repr

end Sys2Proof
end

