-- ==== Sys2Proof/Config.lean ====
section
/-! DEFINITION. What is fixed for the machine: the quantities of 00_scope, the values the model chose where the spec
gives none, and the free values, which have no body. -/

namespace Sys2Proof

/-- Entries of the write queue (R83). -/
def Config.queueSize : Nat := 8
/-- Ownership entries (R65). -/
def Config.ownershipSize : Nat := 128
/-- The wrap margin (R112). -/
def Config.wrapMargin : Nat := 14
/-- Words reserved at an OPEN's admission (R43). -/
def Config.openReservation : Nat := 12
/-- Words reserved for a LOGGED write (R28). -/
def Config.loggedReservation : Nat := 14
/-- An instance's closing reservation (R43). -/
def Config.closingReservation : Nat := 6
/-- Words of a record header (R103). -/
def Config.headerLength : Nat := 6
/-- The refresh owed count's cap (R157). -/
def Config.owedCap : Nat := 5
/-- The anchor debt's cap (R102). -/
def Config.debtCap : Nat := 255
/-- Word 0 of the anchor line (R118). -/
def Config.anchorSignature : Word := 0x5A3C0A17
/-- The link of OPEN and PAD records (R104). -/
def Config.noLink : Word := 0xFFFFFFFF

/-- What a byte of DRAM that nothing has written reads as, while no retention loss is noted.
DESIGN CHOICE (log 1), unsafe: the spec gives the DRAM's first contents nowhere. -/
def Config.unwrittenByte : Byte := 0

/-- Whether byte number `n` of a cut write took its new contents (R160). A free value (log 12). -/
opaque Config.cutByteTaken (n : Nat) : Bool

/-- Whether a power loss before HELD left the DRAM as RST would, or without refresh (row POWER_LOSS).
A free value (log 13). -/
opaque Config.dramLeftAsRst (n : Nat) : Bool

/-- The byte at `addr` after retention loss number `n`. A free value (log 13). -/
opaque Config.lostByte (n addr : Nat) : Byte

/-- Whether the APPLY copy is taken before the waiting cycle's evaluation where one step brings both.
A free value (log 14). -/
opaque Config.copyFirst (n : Nat) : Bool

end Sys2Proof
end

