-- ==== Sys2Proof/Machine/Operands.lean ====
section
/-! DEFINITION. The operand forms of the commands: beats and words of a host cycle (R16, R17), the address lines of a
MARK (R33), the context lines (R21), the straps (00_scope), the check byte (R105) and the management frame (R186). -/

namespace Sys2Proof.Machine

/-! ### Straps and geometry -/

/-- Memory capacity in bytes (00_scope, Straps). -/
def capacity (st : Straps) : Nat := 0x4000000 * 2 ^ st.msel.toNat
/-- Size of the journal area in bytes (00_scope, Straps). -/
def journalSize (st : Straps) : Nat := 0x40000 * 4 ^ st.jsel.toNat
/-- J, the base of the journal area and the address of the anchor line (R101). -/
def journalBase (st : Straps) : Nat := capacity st - journalSize st
/-- R, the ring length in words (R101). -/
def ringLength (st : Straps) : Nat := (journalSize st - 32) / 4
/-- Byte address of a ring position (R101). -/
def ringAddr (st : Straps) (p : Nat) : Nat := journalBase st + 32 + 4 * p
/-- The line of working memory that holds a byte address (00_scope, TERMS). -/
def lineOf (a : Nat) : Nat := a / 32 * 32
/-- The word of its line that a byte address lies in. -/
def wordPos (a : Nat) : Fin 8 := Fin.ofNat 8 (a / 4)
/-- The line that holds a ring position (R101: positions 8m to 8m + 7 share one). -/
def ringLine (st : Straps) (p : Nat) : Nat := lineOf (ringAddr st p)

/-! ### Host cycles -/

/-- The context lines or a mark's context field: 1-4 name a context (R21, R33). -/
def ctxOfLines (l : BitVec 3) : Option Ctx :=
  if l = 1 then some 0 else if l = 2 then some 1 else if l = 3 then some 2 else if l = 4 then some 3 else none

/-- Context lines 5-7 (R18, BADTAG). -/
def badTag (l : BitVec 3) : Bool := decide (5 ≤ l.toNat)

/-- The requests a MARK cycle can name (R33). -/
inductive MarkKind where
  | openKind | commitKind | abandonKind | renewKind | queryKind
  deriving DecidableEq, Repr

/-- A10-A8 of a MARK (R33). -/
def markKind (addr : Word) : Option MarkKind :=
  let k := addr.extractLsb' 8 3
  if k = 1 then some .openKind else if k = 2 then some .commitKind else if k = 3 then some .abandonKind
  else if k = 4 then some .renewKind else if k = 5 then some .queryKind else none

/-- A2-A0 of a MARK (R33). -/
def markCtxField (addr : Word) : BitVec 3 := addr.extractLsb' 0 3

/-- The request that a MARK's address names, and the context it is for; none where its kind or its context names
nothing (R33). -/
def markRequest (addr : Word) : Option (MarkKind × Ctx) :=
  match markKind addr, ctxOfLines (markCtxField addr) with
  | some k, some c => some (k, c)
  | _, _ => none

/-- A MARK's address names a request of kind `k` for some context (R33). -/
def markNames (k : MarkKind) (addr : Word) : Bool := decide ((markRequest addr).map (·.1) = some k)

/-- Whether the kind or the context of a MARK names nothing (R33). -/
def markNamesNothing (addr : Word) : Bool := (markRequest addr).isNone

/-- Burst order settings (R17). -/
inductive BurstOrder where
  | sequential | interleaved
  deriving DecidableEq, Repr

/-- First word of the burst block within its line (R16). -/
def blockBase (addr : Word) : BurstLen → Nat
  | .one => addr.toNat / 4 % 8
  | .four => addr.toNat / 16 % 2 * 4
  | .eight => 0

/-- The start word's position within its burst block (R17). -/
def startWord (addr : Word) (b : BurstLen) : Nat := addr.toNat / 4 % b.beats

/-- The word of the line that beat `k` carries (R17). -/
def beatWord (addr : Word) (b : BurstLen) (o : BurstOrder) (k : Nat) : Fin 8 :=
  let start := startWord addr b
  let off := match o with
    | .sequential => (start + k) % b.beats
    | .interleaved => start ^^^ k
  Fin.ofNat 8 (blockBase addr b + off)

/-- The words of the line in beat order (R17). -/
def beatWords (addr : Word) (b : BurstLen) (o : BurstOrder) : List (Fin 8) :=
  (List.range b.beats).map (beatWord addr b o)

/-- One word of a masked line write: its place in the line, the lanes it changes, its data (R150). -/
structure WordWrite where
  pos : Fin 8
  lanes : Lanes
  data : Word
  deriving DecidableEq, Repr

/-- A masked line write (R150): the words with any lane set; the mask of every other word is empty. -/
structure LineWrite where
  line : Nat
  words : List WordWrite
  deriving DecidableEq, Repr

/-- Inserts a word by ascending position. -/
def insertWord (w : WordWrite) : List WordWrite → List WordWrite
  | [] => [w]
  | x :: xs => if w.pos < x.pos then w :: x :: xs else x :: insertWord w xs

/-- The written words of a WRITE with their lanes and data, by position within the line (R16, R84). -/
def writtenWords (c : WriteCycle) (o : BurstOrder) : List WordWrite :=
  match c.blen with
  | .one =>
    if c.lanes = 0 then []
    else (c.data.take 1).map fun w => ⟨wordPos c.addr.toNat, c.lanes, w⟩
  | _ =>
    ((beatWords c.addr c.blen o).zip c.data).foldr (fun p acc => insertWord ⟨p.1, 15, p.2⟩ acc) []

/-- The set of the written words' positions (R69). -/
def wordSetOf (ws : List WordWrite) : WordSet :=
  ws.foldl (fun m w => m ||| (1#8 <<< w.pos.val)) 0

/-- The words of a set in ascending order. -/
def setWords (m : WordSet) : List (Fin 8) := (List.finRange 8).filter fun i => m.getLsbD i.val

/-- The number of words of a set. -/
def setSize (m : WordSet) : Nat := (setWords m).length

/-! ### Bytes and the check byte -/

/-- The bytes of a word, most significant first (R105). -/
def wordBytes (w : Word) : List Byte :=
  [w.extractLsb' 24 8, w.extractLsb' 16 8, w.extractLsb' 8 8, w.extractLsb' 0 8]

/-- The word of four bytes, most significant first (R186). -/
def wordOfBytes : List Byte → Word
  | [a, b, c, d] => a ++ b ++ c ++ d
  | _ => 0

/-- One bit of the CRC-8 register: shift left, and combine with x⁸+x⁵+x⁴+1 when the top bit leaves (R105). -/
def crcShift (r : Byte) : Byte := if r.msb then (r <<< 1) ^^^ 0x31#8 else r <<< 1

/-- One byte combined into the register, most significant bit first (R105). -/
def crcByte (r b : Byte) : Byte :=
  crcShift (crcShift (crcShift (crcShift (crcShift (crcShift (crcShift (crcShift (r ^^^ b))))))))

/-- CRC-8 of a byte list, from FFh, without final inversion (R105, R191). -/
def crc8 (bs : List Byte) : Byte := bs.foldl crcByte 0xFF

end Sys2Proof.Machine

namespace Sys2Proof

/-! ### Management frames -/

/-- Command byte (R186). -/
def Frame.command (f : Frame) : Byte := f.bytes.getD 0 0
/-- Bit 7 of the command byte: a WRITE frame (R186). -/
def Frame.isWrite (f : Frame) : Bool := f.command.getLsbD 7
/-- Bit 6 of the command byte: a CRC byte ends the frame (R186). -/
def Frame.hasCrc (f : Frame) : Bool := f.command.getLsbD 6
/-- Words of the frame by its length code; code 3 names no length (R186). -/
def Frame.words (f : Frame) : Option Nat :=
  let code := f.command.extractLsb' 4 2
  if code = 0 then some 1 else if code = 1 then some 2 else if code = 2 then some 4 else none
/-- The 16-bit item number of bytes 1-2 (R186). -/
def Frame.item (f : Frame) : Nat := (f.bytes.getD 1 0).toNat * 256 + (f.bytes.getD 2 0).toNat
/-- Bytes declared by a frame of `w` words (R186). -/
def Frame.declared (f : Frame) (w : Nat) : Nat := 3 + 4 * w + (if f.hasCrc then 1 else 0)
/-- Data word `k` of a WRITE frame (R186). -/
def Frame.word (f : Frame) (k : Nat) : Word := Machine.wordOfBytes ((f.bytes.drop (3 + 4 * k)).take 4)
/-- The items a WRITE frame of `w` words names, with the values it carries, in ascending item order (R186). -/
def Frame.writes (f : Frame) (w : Nat) : List (Nat × Word) :=
  (List.range w).map fun k => (f.item + k, f.word k)
/-- The length test of R189 and R190: fewer bytes than declared, or more bits. -/
def Frame.tooShort (f : Frame) (w : Nat) : Bool := decide (f.bytes.length < f.declared w)
/-- More bits than declared (R189, R190). -/
def Frame.tooLong (f : Frame) (w : Nat) : Bool :=
  decide (f.declared w < f.bytes.length) || (decide (f.bytes.length = f.declared w) && decide (f.extraBits.val ≠ 0))
/-- The check byte of a WRITE frame matches, or none was announced (R190, R191). -/
def Frame.crcGood (f : Frame) (w : Nat) : Bool :=
  !f.hasCrc || decide (f.bytes.getD (3 + 4 * w) 0 = Machine.crc8 (f.bytes.take (3 + 4 * w)))

/-- The rows of spec/opcode_table.json that are management frames. -/
inductive FrameRow where
  | none | read | pendingTable | activeTable | apply | format | hold | release | causesClear | maskWrite | setting
  deriving DecidableEq, Repr

/-- The row a frame that has ended belongs to, by its direction and its first item; SETTING_WRITE takes a write frame to
any item without a row of its own, and one that does not reach its item or its command value (log 26). -/
def Frame.row (f : Frame) : FrameRow :=
  if f.bytes.length = 0 then .none
  else if !f.isWrite then .read
  else if f.words.isNone || decide (f.bytes.length < 3) then .setting
  else if 0x20 ≤ f.item ∧ f.item ≤ 0x2F then .pendingTable
  else if 0x30 ≤ f.item ∧ f.item ≤ 0x3F then .activeTable
  else if f.item = 0x40 then .apply
  else if f.item = 0x60 ∧ 7 ≤ f.bytes.length ∧ f.word 0 = 1 then .format
  else if f.item = 0x60 ∧ 7 ≤ f.bytes.length ∧ f.word 0 = 2 then .hold
  else if f.item = 0x60 ∧ 7 ≤ f.bytes.length ∧ f.word 0 = 3 then .release
  else if f.item = 0x70 then .causesClear
  else if f.item = 0x71 then .maskWrite
  else .setting

/-- A command of row `row` may bring the frame: one that has ended belongs to the row; one in progress may still become
a frame of it, which its direction decides (log 26). -/
def Frame.fits (f : Frame) (row : FrameRow) : Bool :=
  if f.ended then decide (f.row = row) else f.bytes.isEmpty || (f.isWrite == decide (row ≠ .read))

end Sys2Proof
end

