-- ==== Sys2Proof/Machine/State.lean ====
section
/-! DEFINITION. The state of the Astilo 3208 as plain data, block by block (00_scope, Blocks), the queue of commands,
the reasons a step can stop, and the machine when power comes. -/

namespace Sys2Proof.Machine

/-! ### Why a step stops -/

/-- Faults: states that no run of the device reaches. -/
inductive Fault where
  /-- Raised at the completion of an access whose line is not in the DRAM: R149 says every address the port receives
  is below the capacity. Safe: the model stops where the spec has no address (log 22). -/
  | accessBeyondCapacity
  /-- Raised where a walk or a retirement pass reads a header that the device cannot have written there
  (R105, R137, R138). Safe: the model stops where the spec says the case does not arise (log 22). -/
  | ringRecordUnreadable
  deriving DecidableEq, Repr

/-- Refusals: no meaning for the command. -/
inductive Refusal where
  /-- A constructor that has no arm yet; no meaning raises it. Safe. -/
  | notModelled (mnemonic : String)
  /-- Raised for a command term that spells no command of its row (WellFormed). Safe (log 10). -/
  | illFormed
  /-- Raised for an event that cannot happen in this state: a completion of an access that is not in flight, an
  expiry of a timer that is stopped, power-on completing twice. Safe (log 9). -/
  | eventCannotOccur
  deriving DecidableEq, Repr

/-! ### DRAM -/

/-- The DRAM array. `cells` lists the bytes that differ from what an unlisted address reads as, by strictly rising
address. `lost` is the number of the last loss of retention, if any (log 13). -/
structure Memory where
  cells : List Host.Cell
  lost : Option Nat
  deriving DecidableEq, Repr

/-! ### Region map (R1, R194) -/

inductive RegionMode where
  | pass | journal | strict | readonly
  deriving DecidableEq, Repr

inductive ReadView where
  | current | before
  deriving DecidableEq, Repr

/-- A region entry with its codes as stored (R1, R194). -/
structure RegionEntry where
  base : BitVec 16
  size : BitVec 16
  mode : BitVec 4
  view : BitVec 2
  deriving DecidableEq, Repr

structure RegionMap where
  active : Vector RegionEntry 8
  pendingTable : Vector RegionEntry 8
  applyWaiting : Bool
  deriving DecidableEq, Repr

/-! ### Context manager (R37) -/

inductive CtxState where
  | free | opened | spoiled | closing | undoing
  deriving DecidableEq, Repr

inductive FinishOutcome where
  | none | committed | abandoned | revoked | recovered
  deriving DecidableEq, Repr

inductive SpoilCause where
  | ownershipFull | journalFull
  deriving DecidableEq, Repr

/-- A lease timer: the length it started with in ms, and the time run in half microseconds (R49). -/
structure LeaseTimer where
  running : Bool
  lengthMs : Nat
  elapsed : Nat
  deriving DecidableEq, Repr

structure ContextEntry where
  state : CtxState
  inst : Word
  lease : LeaseTimer
  leaseExpired : Bool
  spoil : Option SpoilCause
  outcome : FinishOutcome
  owned : Nat
  queued : Nat
  newest : Option Nat
  commitWaiter : Bool
  deriving DecidableEq, Repr

/-! ### Ownership table (R65) -/

/-- An image locator (R74). -/
inductive Locator where
  | pending
  | position (p : Nat)
  deriving DecidableEq, Repr

/-- An ownership entry; word `k` is in the logged set when `words[k]` holds a locator. -/
structure OwnEntry where
  line : Nat
  ctx : Ctx
  inst : Word
  words : Vector (Option Locator) 8
  deriving DecidableEq, Repr

/-! ### Write queue and write engine (R83, R86) -/

inductive QEntry where
  | plain (w : LineWrite)
  | covered (w : LineWrite) (ctx : Ctx) (inst : Word)
  | logged (w : LineWrite) (ctx : Ctx) (inst : Word) (needed : WordSet)
  | openEntry (ctx : Ctx) (inst : Word)
  | commitEntry (ctx : Ctx) (inst : Word)
  deriving DecidableEq, Repr

/-- The group being formed. `remaining` counts the members whose data write is not complete; `images` holds the
images of the union in ascending word order once the old line is read. -/
structure Group where
  inst : Word
  ctx : Ctx
  line : Nat
  members : Nat
  remaining : Nat
  union : WordSet
  images : List Word
  deriving DecidableEq, Repr

inductive Engine where
  | stopped | idle | data | openRecord | committing
  | gather (g : Group)
  | oldRead (g : Group)
  | beforeRecord (g : Group)
  | groupData (g : Group)
  deriving DecidableEq, Repr

/-! ### Journal controller (R102) -/

inductive RecKind where
  | openRec | before | commit | done | pad
  deriving DecidableEq, Repr

/-- Identity of the record at the live tail; a PAD has no context. -/
structure TailId where
  kind : RecKind
  ctx : Option Ctx
  inst : Word
  seq : Word
  deriving DecidableEq, Repr

inductive JournalCondition where
  | blank | valid | damaged
  deriving DecidableEq, Repr

inductive Appender where
  | writeEngine | rollbackEngine
  deriving DecidableEq, Repr

/-- A record an appender asks for: its kind, context, instance, byte 1 of word 0, line address, images, and for a
BEFORE record the number of the group's members. -/
structure RecordReq where
  kind : RecKind
  ctx : Ctx
  inst : Word
  byte1 : Byte
  line : Word
  images : List Word
  members : Nat
  deriving DecidableEq, Repr

/-- The append in hand (R107-R109). While a PAD is written first, `padLen` is its length; `writes` are the masked line
writes of the PAD or record that are not complete, the first one requested or in flight. -/
structure Append where
  who : Appender
  req : RecordReq
  padLen : Option Nat
  pos : Nat
  seq : Word
  writes : List LineWrite
  deriving DecidableEq, Repr

/-- A running retirement pass: where the live tail was at its beginning, the header words read so far, and the sequence
number expected at the live tail once the pass has moved it past a record (R102, R118, log 38). -/
structure Pass where
  start : Nat
  words : List Word
  expected : Option Word
  deriving DecidableEq, Repr

inductive ReclaimStage where
  | idle | inPass | awaitingAnchor
  deriving DecidableEq, Repr

inductive AnchorUse where
  | unforced | forced | format | closing
  deriving DecidableEq, Repr

structure AnchorWrite where
  tail : Nat
  why : AnchorUse
  deriving DecidableEq, Repr

structure Journal where
  head : Nat
  liveTail : Nat
  anchoredTail : Nat
  tailRec : Option TailId
  reserved : Nat
  endGap : Nat
  nextSeq : Word
  nextInst : Word
  debt : Nat
  cond : JournalCondition
  formatting : Bool
  append : Option Append
  appendWaiting : Option (Appender × RecordReq)
  pass : Option Pass
  passAgain : Bool
  reclaim : ReclaimStage
  reclaimAgain : Bool
  anchor : Option AnchorWrite
  forcedPending : Bool
  deriving DecidableEq, Repr

/-! ### Rollback engine (R134, R136) -/

structure ListEntry where
  ctx : Ctx
  inst : Word
  outcome : FinishOutcome
  deriving DecidableEq, Repr

/-- The walk record, with the words of the record in hand read so far (R136: kind, length, mask, line, link and images
are fields of those words). -/
structure Walk where
  ctx : Ctx
  inst : Word
  outcome : FinishOutcome
  pos : Nat
  words : List Word
  deriving DecidableEq, Repr

inductive RollbackState where
  | stopped | idle | read | restore | close | halted
  deriving DecidableEq, Repr

structure Rollback where
  list : List ListEntry
  state : RollbackState
  walk : Option Walk
  deriving DecidableEq, Repr

/-! ### Memory port (R150-R157) -/

inductive ReadUse where
  | host | oldLine | walk | anchor | scan | header
  deriving DecidableEq, Repr

inductive WriteUse where
  | data
  | append (who : Appender)
  | restore
  | anchor (forced : Bool)
  deriving DecidableEq, Repr

/-- The accesses of R150, with what they are for. -/
inductive Access where
  | read (use : ReadUse) (line : Nat)
  | write (use : WriteUse) (w : LineWrite)
  | refresh
  deriving DecidableEq, Repr

inductive PortState where
  | unconfigured | bringingUp | active | entering | selfRefresh | exiting
  deriving DecidableEq, Repr

/-- The refresh timer: the interval it runs and the time run, in half microseconds (R156). -/
structure RefreshTimer where
  running : Bool
  interval : Nat
  elapsed : Nat
  deriving DecidableEq, Repr

structure MemPort where
  state : PortState
  /-- `none` is CLOSED, `some r` is OPEN with row `r` (R151) -/
  banks : Vector (Option Nat) 8
  owed : Nat
  timer : RefreshTimer
  /-- the requests waiting, at most one a requester; the refresh logic's request follows from the owed count (R157) -/
  waiting : List Access
  inFlight : Option Access
  deriving DecidableEq, Repr

/-! ### Host bus port (R15-R36) -/

/-- Response codes (R18). -/
inductive Rsp where
  | okay | outside | protectedArea | readonly | conflict | untagged | badTag | state | noRoom | timeout | notReady | held
  deriving DecidableEq, Repr

/-- The answer that ends a cycle: RSP3-RSP0, and the word of each beat of a READ or MARK (R15, R18). -/
structure Answer where
  code : Rsp
  data : List Word
  deriving DecidableEq, Repr

/-- A cycle that the port has taken, with the burst order in force when it was taken (R17). -/
inductive Cycle where
  | read (c : ReadCycle) (order : BurstOrder)
  | write (c : WriteCycle) (order : BurstOrder)
  | openMark (c : Ctx)
  | commitMark (c : Ctx)
  deriving DecidableEq, Repr

/-- Wait conditions (R19, R29). -/
inductive WaitCond where
  | queueSpace
  | ownersRelease (inst : Word)
  | journalRoom
  | readAfterWrite (line : Nat)
  | commitCompletion (c : Ctx)
  deriving DecidableEq, Repr

/-- The wait timer: the limit in µs it started with, and the time run in half microseconds (R30). -/
structure WaitTimer where
  limit : Nat
  elapsed : Nat
  deriving DecidableEq, Repr

structure Waiting where
  cycle : Cycle
  cond : WaitCond
  timer : WaitTimer
  deriving DecidableEq, Repr

/-- A READ in READING: the byte address that supplies each beat, the lines not yet read, the lines read (R23); and the
wait timer, which runs until the cycle is answered where the READ waited before (R30). -/
structure Reading where
  cycle : ReadCycle
  timer : Option WaitTimer
  sources : List Nat
  todo : List Nat
  got : List (Nat × List Word)
  deriving DecidableEq, Repr

/-- The host bus port's state. R19 says five states, and its table names STOPPED, IDLE, WAITING and READING with a row
for any state: the model has these four (DEDUCED, log 33). -/
inductive HostMode where
  | stopped | idle
  | waiting (w : Waiting)
  | reading (r : Reading)
  deriving DecidableEq, Repr

inductive CycleKind where
  | read | write | mark
  deriving DecidableEq, Repr

/-- The last refusal record (R36). -/
structure RefusalRecord where
  addr : Word
  code : Rsp
  ctx : BitVec 3
  kind : CycleKind
  deriving DecidableEq, Repr

structure HostPort where
  mode : HostMode
  answer : Option Answer
  refusal : RefusalRecord
  deriving DecidableEq, Repr

/-! ### Part control and the recovery scanner (R165, R176, R183) -/

inductive PartState where
  | stopped | starting | running | holding | held
  deriving DecidableEq, Repr

inductive StartPhase where
  | bringUp | anchor | scan | undo
  deriving DecidableEq, Repr

inductive StartKind where
  | powerOn | rst | restart
  deriving DecidableEq, Repr

inductive StopReason where
  | none | kind | length | check | sequence | field | address | context | closed | link | limit
  deriving DecidableEq, Repr

structure Report where
  kind : StartKind
  cond : JournalCondition
  reason : StopReason
  stopPos : Nat
  scanned : Nat
  found : Nat
  rolledBack : Nat
  complete : Bool
  deriving DecidableEq, Repr

structure OpenInst where
  inst : Word
  lastSeen : Nat
  deriving DecidableEq, Repr

structure ClosedNote where
  inst : Word
  outcome : FinishOutcome
  deriving DecidableEq, Repr

/-- The scanner's state (R176), with the words of the record at the scan position read so far, and the identity of the
first record taken, which becomes the tail record (R179). -/
structure Scan where
  pos : Nat
  expected : Word
  length : Nat
  taken : Nat
  lineInHand : Option (Nat × List Word)
  words : List Word
  highest : Option Word
  gap : Nat
  openInst : Vector (Option OpenInst) 4
  closed : Vector (Option ClosedNote) 4
  order : List Ctx
  first : Option TailId
  deriving DecidableEq, Repr

structure PartControl where
  state : PartState
  phase : Option StartPhase
  kind : StartKind
  /-- a start has completed BRINGUP since power came (R165) -/
  broughtUp : Bool
  /-- supplies and clocks are established (R173) -/
  powered : Bool
  /-- level of the RST line: asserted -/
  rst : Bool
  /-- level of the PFWARN line: asserted -/
  pfwarn : Bool
  holdFlag : Bool
  straps : Straps
  scan : Option Scan
  report : Report
  deriving DecidableEq, Repr

/-! ### Management port and alert unit (R187, R195, R197) -/

inductive LeaseAction where
  | report | revoke
  deriving DecidableEq, Repr

/-- The seven settings (R195); the refresh period is in half microseconds. -/
structure Settings where
  burstOrder : BurstOrder
  waitLimit : Nat
  leaseLength : Nat
  leaseAction : LeaseAction
  anchorDefer : Nat
  lowWater : Nat
  refreshPeriod : Nat
  deriving DecidableEq, Repr

inductive FrameState where
  | idle | command | item | data | check | excess | stopped
  deriving DecidableEq, Repr

inductive FrameResult where
  | ok | crcMismatch | short | length | badItem | refused
  deriving DecidableEq, Repr

/-- A frame in progress (R187): the whole bytes taken so far, and a READ's snapshot once it is taken (R189), with none
for an item number that names no item. -/
structure FrameInProgress where
  bytes : List Byte
  snapshot : Option (List (Option Word))
  deriving DecidableEq, Repr

/-- The management port and the alert unit. `mdo` and `mdoBits` are the whole bytes and the bits of a last broken byte
that the last frame shifted out (R187-R191). -/
structure Management where
  frame : FrameState
  current : Option FrameInProgress
  lastResult : FrameResult
  mdo : List Byte
  mdoBits : List Bool
  settings : Settings
  causes : BitVec 7
  mask : BitVec 7
  notedExpired : Option Ctx
  notedRevoked : Option Ctx
  deriving DecidableEq, Repr

/-! ### The whole -/

/-- The block. -/
structure Device where
  host : HostPort
  regions : RegionMap
  contexts : Vector ContextEntry 4
  own : List OwnEntry
  queue : List QEntry
  engine : Engine
  journal : Journal
  rollback : Rollback
  port : MemPort
  part : PartControl
  mgmt : Management
  dram : Memory
  /-- free values drawn so far (the model's own field, log 12) -/
  drawn : Nat
  deriving DecidableEq, Repr

/-- The block and the queue of the commands that wait, first in, first out. -/
structure State where
  pending : List Instr
  dev : Device
  deriving DecidableEq, Repr

/-! ### Values at a start and when power comes -/

/-- R12. -/
def RegionEntry.unused : RegionEntry := { base := 0, size := 0, mode := 0, view := 0 }
/-- R12. -/
def RegionMap.cleared : RegionMap :=
  { active := Vector.replicate 8 RegionEntry.unused, pendingTable := Vector.replicate 8 RegionEntry.unused,
    applyWaiting := false }
/-- R61; a stopped timer's length and elapsed time: DESIGN CHOICE 0 (log 6). -/
def ContextEntry.cleared : ContextEntry :=
  { state := .free, inst := 0, lease := { running := false, lengthMs := 0, elapsed := 0 }, leaseExpired := false,
    spoil := none, outcome := .none, owned := 0, queued := 0, newest := none, commitWaiter := false }
/-- R128. -/
def Journal.cleared : Journal :=
  { head := 0, liveTail := 0, anchoredTail := 0, tailRec := none, reserved := 0, endGap := 0, nextSeq := 1,
    nextInst := 1, debt := 0, cond := .blank, formatting := false, append := none, appendWaiting := none, pass := none,
    passAgain := false, reclaim := .idle, reclaimAgain := false, anchor := none, forcedPending := false }
/-- R36: the empty record. -/
def RefusalRecord.empty : RefusalRecord := { addr := 0, code := .okay, ctx := 0, kind := .read }
/-- R195. -/
def Settings.defaults : Settings :=
  { burstOrder := .sequential, waitLimit := 100, leaseLength := 2000, leaseAction := .report, anchorDefer := 2,
    lowWater := 2, refreshPeriod := 12 }
/-- R183: the report at the entry to BRINGUP. -/
def Report.initial (k : StartKind) : Report :=
  { kind := k, cond := .blank, reason := .none, stopPos := 0, scanned := 0, found := 0, rolledBack := 0,
    complete := false }
/-- R176: the scanner at the entry to SCAN. -/
def Scan.initial (tail : Nat) (expected : Word) : Scan :=
  { pos := tail, expected := expected, length := 0, taken := 0, lineInHand := none, words := [], highest := none,
    gap := 0, openInst := Vector.replicate 4 none, closed := Vector.replicate 4 none, order := [], first := none }
/-- R200: the management port and alert unit after power-on and RST, with the frame state given. -/
def Management.defaults (f : FrameState) : Management :=
  { frame := f, current := none, lastResult := .ok, mdo := [], mdoBits := [], settings := Settings.defaults, causes := 0, mask := 0x7F,
    notedExpired := none, notedRevoked := none }
/-- R151: every bank CLOSED. -/
def banksClosed : Vector (Option Nat) 8 := Vector.replicate 8 none

/-- The block when power comes, over a DRAM and line levels: STOPPED and UNCONFIGURED (R173), every block with the
values of R12, R36, R61, R81, R100, R128, R148, R163 and R200. -/
def Device.unstarted (dram : Memory) (rst pfwarn : Bool) (drawn : Nat) : Device :=
  { host := { mode := .stopped, answer := none, refusal := RefusalRecord.empty }
    regions := RegionMap.cleared
    contexts := Vector.replicate 4 ContextEntry.cleared
    own := [], queue := [], engine := .stopped, journal := Journal.cleared
    rollback := { list := [], state := .stopped, walk := none }
    port := { state := .unconfigured, banks := banksClosed, owed := 0,
              timer := { running := false, interval := 0, elapsed := 0 }, waiting := [], inFlight := none }
    part := { state := .stopped, phase := none, kind := .powerOn, broughtUp := false, powered := false, rst := rst,
              pfwarn := pfwarn, holdFlag := false, straps := { msel := 0, jsel := 0 }, scan := none,
              report := Report.initial .powerOn }
    mgmt := Management.defaults .stopped
    dram := dram, drawn := drawn }

/-- The machine when power comes, before POWER_ON_COMPLETE: R173. The lines RST and PFWARN are negated (log 3), the
DRAM lists nothing (log 1), no command waits. -/
def State.reset : State :=
  { pending := [], dev := Device.unstarted { cells := [], lost := none } false false 0 }

end Sys2Proof.Machine
end

