-- ==== Sys2Proof/Machine/Ops.lean ====
section
/-! DEFINITION. The named operations over the DRAM, the tables and the memory port's requests, and the arbiter. -/

namespace Sys2Proof.Machine

/-! ### DRAM -/

/-- What an address that is not listed reads as: 00h (log 1), or after a loss of retention a free value (log 13). -/
def Memory.unlisted (m : Memory) (a : Nat) : Byte :=
  match m.lost with
  | none => Config.unwrittenByte
  | some n => Config.lostByte n a

/-- The byte listed for an address. -/
def cellAt (a : Nat) : List Host.Cell → Option Byte
  | [] => none
  | (x, v) :: xs => if x = a then some v else cellAt a xs

/-- One byte of DRAM. -/
def Memory.read (m : Memory) (a : Nat) : Byte := (cellAt a m.cells).getD (m.unlisted a)

/-- Lists `v` at `a`, or nothing when `v` is `none`. -/
def setCell (a : Nat) (v : Option Byte) : List Host.Cell → List Host.Cell
  | [] => match v with
    | none => []
    | some b => [(a, b)]
  | (x, w) :: xs =>
    if a < x then (match v with
      | none => (x, w) :: xs
      | some b => (a, b) :: (x, w) :: xs)
    else if a = x then (match v with
      | none => xs
      | some b => (a, b) :: xs)
    else (x, w) :: setCell a v xs

/-- Writes one byte of DRAM and keeps the canonical form. -/
def Memory.write (m : Memory) (a : Nat) (b : Byte) : Memory :=
  { m with cells := setCell a (if b = m.unlisted a then none else some b) m.cells }

/-- Strictly rising addresses. -/
def risingFrom : Nat → List Host.Cell → Bool
  | _, [] => true
  | lo, (x, _) :: xs => decide (lo ≤ x) && risingFrom (x + 1) xs

/-- The canonical form: strictly rising addresses, no entry equal to what an unlisted address reads as. -/
def Memory.wf (m : Memory) : Bool :=
  risingFrom 0 m.cells && m.cells.all fun c => decide (c.2 ≠ m.unlisted c.1)

/-- The word at a word-aligned address; byte `k` of the word lies at address `a + k` (log 2). -/
def Memory.readWord (m : Memory) (a : Nat) : Word :=
  m.read (a + 3) ++ m.read (a + 2) ++ m.read (a + 1) ++ m.read a

/-- The 8 words of a line, word 0 first (R150). -/
def Memory.readLine (m : Memory) (line : Nat) : List Word :=
  (List.range 8).map fun k => m.readWord (line + 4 * k)

/-- Byte `k` of a word; byte 3 is the most significant (00_scope, CONVENTIONS). -/
def wordByte (w : Word) (k : Nat) : Byte := w.extractLsb' (8 * k) 8

/-- The bytes a masked line write would change: the byte's number in the line, and its new value (R150). -/
def LineWrite.bytes (w : LineWrite) : List (Nat × Byte) :=
  w.words.flatMap fun x =>
    ((List.range 4).filter fun k => x.lanes.getLsbD k).map fun k => (4 * x.pos.val + k, wordByte x.data k)

/-- Writes those bytes of the line for which `takes` says so. -/
def Memory.writeBytes (m : Memory) (line : Nat) (takes : Nat → Bool) (bs : List (Nat × Byte)) : Memory :=
  bs.foldl (fun m b => if takes b.1 then m.write (line + b.1) b.2 else m) m

/-- A masked line write (R150). -/
def Memory.writeLine (m : Memory) (w : LineWrite) : Memory :=
  m.writeBytes w.line (fun _ => true) w.bytes

/-- A masked line write that was cut: each byte it would change holds its old or its new contents (R160).
`n` numbers the free values. -/
def Memory.cutLine (m : Memory) (n : Nat) (w : LineWrite) : Memory :=
  m.writeBytes w.line (fun i => Config.cutByteTaken (n + i)) w.bytes

/-- Writes some of the bytes of a line, so that `bad` does not hold: the first such mix, old bytes before new ones; none
where every mix is bad. -/
def Memory.mixAvoiding (bad : Memory → Bool) (line : Nat) : List (Nat × Byte) → Memory → Option Memory
  | [], m => if bad m then none else some m
  | b :: bs, m => match Memory.mixAvoiding bad line bs m with
    | some x => some x
    | none => Memory.mixAvoiding bad line bs (m.write (line + b.1) b.2)

/-- A masked line write that was cut, where the cut cannot leave a DRAM that is `bad`: free values that give one give way
to another mix of old and new bytes, so far as there is one (log 34). -/
def Memory.cutAvoiding (m : Memory) (n : Nat) (w : LineWrite) (bad : Memory → Bool) : Memory :=
  let x := m.cutLine n w
  let changed := w.bytes.filter fun b => decide (m.read (w.line + b.1) ≠ b.2)
  if bad x then (Memory.mixAvoiding bad w.line changed m).getD x else x

/-! ### Context table -/

/-- The entry of a context (R37). -/
def Device.ctx (d : Device) (c : Ctx) : ContextEntry := d.contexts[c]

/-- Changes the entry of a context. -/
def Device.modifyCtx (d : Device) (c : Ctx) (f : ContextEntry → ContextEntry) : Device :=
  { d with contexts := d.contexts.set c.val (f (d.ctx c)) c.isLt }

/-- A timer stopped as it stands (R49). -/
def LeaseTimer.stop (t : LeaseTimer) : LeaseTimer := { t with running := false }

/-- A timer started from zero with the lease length in force (R49). -/
def Device.freshLease (d : Device) : LeaseTimer :=
  { running := true, lengthMs := d.mgmt.settings.leaseLength, elapsed := 0 }

/-! ### Geometry of the straps sampled at this start (R101, R171) -/

/-- R. -/
def Device.ring (d : Device) : Nat := ringLength d.part.straps

/-! ### Memory port: requests -/

/-- Requests an access for its requester (R153). -/
def Device.request (d : Device) (a : Access) : Device :=
  { d with port := { d.port with waiting := d.port.waiting ++ [a] } }

/-- Withdraws the requests not granted for which `p` holds (R153). -/
def Device.withdraw (d : Device) (p : Access → Bool) : Device :=
  { d with port := { d.port with waiting := d.port.waiting.filter fun a => !p a } }

/-- The rank of a request (R153); the refresh logic's is that of the owed count. -/
def rank (owed : Nat) : Access → Nat
  | .refresh => if 3 ≤ owed then 1 else 9
  | .write (.anchor true) _ => 2
  | .read .host _ => 3
  | .read .oldLine _ => 4
  | .write .data _ => 4
  | .write (.append .writeEngine) _ => 4
  | .read .walk _ => 5
  | .write .restore _ => 5
  | .write (.append .rollbackEngine) _ => 5
  | .read .anchor _ => 6
  | .read .scan _ => 6
  | .read .header _ => 7
  | .write (.anchor false) _ => 8

/-- The requests at the arbiter: those waiting, and the refresh logic's while the owed count is 1 or more (R157). -/
def MemPort.requests (p : MemPort) : List Access :=
  if 0 < p.owed then .refresh :: p.waiting else p.waiting

/-- The highest-ranked of a list of requests (R154). -/
def bestRequest (owed : Nat) : List Access → Option Access
  | [] => none
  | a :: as => match bestRequest owed as with
    | none => some a
    | some b => if rank owed b < rank owed a then some b else some a

/-- DRAM bank of a byte address: A13-A11 (R149). -/
def bankOf (a : Nat) : Fin 8 := Fin.ofNat 8 (a / 2048)
/-- DRAM row of a byte address: A31-A14 (R149). -/
def rowOf (a : Nat) : Nat := a / 16384

/-- The line an access covers; a refresh covers none (R150). -/
def Access.line? : Access → Option Nat
  | .read _ l => some l
  | .write _ w => some w.line
  | .refresh => none

/-- The bank table after the grant of an access (R151); a refresh closes the banks at its completion (R157). -/
def banksAfterGrant (banks : Vector (Option Nat) 8) (a : Access) : Vector (Option Nat) 8 :=
  match a.line? with
  | some l => banks.set (bankOf l).val (some (rowOf l)) (bankOf l).isLt
  | none => banks

/-- The grant of the old-line read fixes the group (R91). -/
def Engine.onGrant (e : Engine) (a : Access) : Engine :=
  match e, a with
  | .gather g, .read .oldLine _ => .oldRead g
  | e, _ => e

/-- The access `a` is granted. -/
def Device.granted (d : Device) (a : Access) : Device :=
  { d with
    engine := d.engine.onGrant a
    port := { d.port with
      waiting := d.port.waiting.erase a
      inFlight := some a
      banks := banksAfterGrant d.port.banks a } }

/-- A grant moment (R154): in ACTIVE, with no access in flight, the highest-ranked request waiting is granted. -/
def Device.grant (d : Device) : Device :=
  if d.port.state = .active ∧ d.port.inFlight = none then
    match bestRequest d.port.owed d.port.requests with
    | none => d
    | some a => d.granted a
  else d

/-- The access in flight has completed (R155). -/
def Device.landed (d : Device) : Device := { d with port := { d.port with inFlight := none } }

/-- The line of an access lies in the DRAM (R149). -/
def Device.inDram (d : Device) (line : Nat) : Bool := decide (line + 32 ≤ capacity d.part.straps)

/-- A refresh timer started from zero with the period in force (R156). -/
def Device.freshRefresh (d : Device) : RefreshTimer :=
  { running := true, interval := d.mgmt.settings.refreshPeriod, elapsed := 0 }

/-! ### Time (log 6) -/

/-- Half a microsecond on a lease timer. -/
def LeaseTimer.tick (t : LeaseTimer) : LeaseTimer :=
  if t.running then { t with elapsed := min (t.elapsed + 1) (2000 * t.lengthMs) } else t

/-- Half a microsecond on a running wait timer. -/
def WaitTimer.tick (t : WaitTimer) : WaitTimer := { t with elapsed := min (t.elapsed + 1) (2 * t.limit) }

/-- Half a microsecond on the port's wait timer, in WAITING and in READING (R30). -/
def HostMode.tick : HostMode → HostMode
  | .waiting w => .waiting { w with timer := w.timer.tick }
  | .reading r => .reading { r with timer := r.timer.map WaitTimer.tick }
  | .stopped => .stopped
  | .idle => .idle

/-- Half a microsecond on the refresh timer. -/
def RefreshTimer.tick (t : RefreshTimer) : RefreshTimer :=
  if t.running then { t with elapsed := min (t.elapsed + 1) t.interval } else t

/-- Half a microsecond passes: every running timer advances, up to its length (R30, R49, R156). -/
def Device.tick (d : Device) : Device :=
  { d with
    contexts := d.contexts.map fun e => { e with lease := e.lease.tick }
    host := { d.host with mode := d.host.mode.tick }
    port := { d.port with timer := d.port.timer.tick } }

/-- An outcome over the block as an outcome over the state: the queue is not touched. -/
def State.onDevice (s : State) (r : Host.Outcome Device Fault Refusal) : Host.Outcome State Fault Refusal :=
  match r with
  | .next d => .next { s with dev := d }
  | .fault f => .fault f
  | .refused f => .refused f

end Sys2Proof.Machine
end

