-- ==== Sys2Proof/Machine/Flags.lean ====
section
/-! DEFINITION. Codes, status fields, lines and alert causes: the reply word (R35), the response codes (R18), free space
(R112), READY, HELD (R165), ALERT (R198) and the raising of causes (R197). -/

namespace Sys2Proof.Machine

/-! ### Lines -/

/-- READY: asserted exactly in RUNNING (R165). -/
def Device.readyLine (d : Device) : Bool := decide (d.part.state = .running)
/-- HELD: asserted exactly in HELD (R165). -/
def Device.heldLine (d : Device) : Bool := decide (d.part.state = .held)
/-- ALERT: a cause is both set and enabled, and the part is not STOPPED (R198). -/
def Device.alertLine (d : Device) : Bool :=
  decide (d.mgmt.causes &&& d.mgmt.mask ≠ 0) && decide (d.part.state ≠ .stopped)
/-- The self-refresh flag: set in SELF_REFRESH (R152). -/
def Device.selfRefreshFlag (d : Device) : Bool := decide (d.port.state = .selfRefresh)

/-! ### Alert causes (R197) -/

inductive Cause where
  | leaseExpired | revoked | journalLow | recoveryDone | journalDamaged | refreshOverrun | linkCrc
  deriving DecidableEq, Repr

/-- The bit of a cause in items 070h and 071h (R197). -/
def Cause.bit : Cause → Nat
  | .leaseExpired => 0
  | .revoked => 1
  | .journalLow => 2
  | .recoveryDone => 3
  | .journalDamaged => 4
  | .refreshOverrun => 5
  | .linkCrc => 6

/-- A raising sets the cause's flag, whether or not it was set (R197). -/
def Device.raise (d : Device) (c : Cause) : Device :=
  { d with mgmt := { d.mgmt with causes := d.mgmt.causes ||| (1#7 <<< c.bit) } }

/-! ### Journal space (R112, R126) -/

/-- Used space (R112). -/
def Device.used (d : Device) : Nat :=
  (d.journal.head + d.ring - d.journal.anchoredTail) % d.ring

/-- Free space, which a wrap can leave below 0 (R112). -/
def Device.free (d : Device) : Int :=
  (d.ring : Int) - d.used - d.journal.reserved - Config.wrapMargin

/-- The low-water threshold (R126). -/
def Device.lowThreshold (d : Device) : Nat := d.mgmt.settings.lowWater * d.ring / 16

/-- After a change of free space from that of `before`: JOURNAL_LOW is raised when it fell from at or above the
threshold to below it, with the condition VALID (R126). -/
def Device.noteFree (d : Device) (before : Int) : Device :=
  if d.journal.cond = .valid ∧ (d.lowThreshold : Int) ≤ before ∧ d.free < d.lowThreshold then d.raise .journalLow
  else d

/-- Words are added to the reserved total (R111), an event of R126. -/
def Device.reserve (d : Device) (n : Nat) : Device :=
  Device.noteFree { d with journal := { d.journal with reserved := d.journal.reserved + n } } d.free

/-! ### Codes -/

/-- RSP3-RSP0 (R18). -/
def Rsp.code : Rsp → Nat
  | .okay => 0
  | .outside => 1
  | .protectedArea => 2
  | .readonly => 3
  | .conflict => 4
  | .untagged => 5
  | .badTag => 6
  | .state => 7
  | .noRoom => 8
  | .timeout => 9
  | .notReady => 10
  | .held => 11

/-- The codes that overwrite the last refusal record (R36). -/
def Rsp.isRefusal : Rsp → Bool
  | .outside | .protectedArea | .readonly | .conflict | .untagged | .badTag | .state | .noRoom => true
  | .okay | .timeout | .notReady | .held => false

/-- Context state codes (R35). -/
def CtxState.code : CtxState → Nat
  | .free => 0
  | .opened => 1
  | .spoiled => 2
  | .closing => 3
  | .undoing => 4

/-- Outcome codes (R35). -/
def FinishOutcome.code : FinishOutcome → Nat
  | .none => 0
  | .committed => 1
  | .abandoned => 2
  | .revoked => 3
  | .recovered => 4

/-- The outcome that a DONE record's code names (R104). -/
def outcomeOfCode (b : Byte) : FinishOutcome :=
  if b = 2 then .abandoned else if b = 3 then .revoked else .recovered

/-- Spoil cause codes (R193). -/
def spoilCode : Option SpoilCause → Nat
  | none => 0
  | some .ownershipFull => 1
  | some .journalFull => 2

/-- Record kind codes (R103). -/
def RecKind.code : RecKind → Nat
  | .openRec => 1
  | .before => 2
  | .commit => 3
  | .done => 4
  | .pad => 5

/-- The record kind that a code names (R103). -/
def kindOfCode (b : Byte) : Option RecKind :=
  if b = 1 then some .openRec else if b = 2 then some .before else if b = 3 then some .commit
  else if b = 4 then some .done else if b = 5 then some .pad else none

/-- The context that a header's byte 2 names (R104). -/
def ctxOfByte (b : Byte) : Option Ctx :=
  if b = 1 then some 0 else if b = 2 then some 1 else if b = 3 then some 2 else if b = 4 then some 3 else none

/-- Reply results (R35). -/
inductive ReplyResult where
  | opened | committed | pending | accepted | refused | busy | noRoom | unavailable | deferred | status
  deriving DecidableEq, Repr

/-- Reply result codes (R35). -/
def ReplyResult.code : ReplyResult → Nat
  | .opened => 1
  | .committed => 2
  | .pending => 3
  | .accepted => 4
  | .refused => 5
  | .busy => 6
  | .noRoom => 7
  | .unavailable => 8
  | .deferred => 9
  | .status => 10

/-- A flag as a number. -/
def bit (b : Bool) : Nat := if b then 1 else 0

/-- The reply word (R35): result, context state, lease expired, owned lines or last outcome, low 16 bits of the
instance number. -/
def replyWord (r : ReplyResult) (e : ContextEntry) : Word :=
  let field := if e.state = .free then e.outcome.code else e.owned
  BitVec.ofNat 4 r.code ++ BitVec.ofNat 3 e.state.code ++ BitVec.ofBool e.leaseExpired ++ BitVec.ofNat 8 field
    ++ e.inst.extractLsb' 0 16

/-- The place of a context in the rollback list, 1-4, or 0 (R134, R193). -/
def listPlace (c : Ctx) : List ListEntry → Nat
  | [] => 0
  | e :: es => if e.ctx = c then 1 else match listPlace c es with
    | 0 => 0
    | n + 1 => n + 2

/-- Frame result codes (R188). -/
def FrameResult.code : FrameResult → Byte
  | .ok => 0
  | .crcMismatch => 1
  | .short => 2
  | .length => 3
  | .badItem => 4
  | .refused => 5

end Sys2Proof.Machine
end

