-- ==== Sys2Proof/Machine/Journal.lean ====
section
/-! DEFINITION. The journal controller: record layout (R103-R106), placement and appending (R107-R110), reclaim and
retirement (R113-R117), the anchor line and its writer (R118-R121). -/

namespace Sys2Proof.Machine

/-! ### Records -/

/-- Length of a record in words (R103). -/
def RecordReq.length (r : RecordReq) : Nat := Config.headerLength + r.images.length

/-- Header word 0 (R104). -/
def headerWord0 (kind ctx byte1 crc : Byte) : Word := kind ++ ctx ++ byte1 ++ crc

/-- The check byte of a record: bytes 3-1 of word 0, then the other words given (R105). -/
def recordCrc (words : List Word) : Byte :=
  match words with
  | [] => crc8 []
  | w :: ws => crc8 ((wordBytes w).take 3 ++ ws.flatMap wordBytes)

/-- A record or header checks good: the computed check byte equals byte 0 of word 0 (R105). -/
def recordChecks (words : List Word) : Bool :=
  decide (recordCrc words = (words.getD 0 0).extractLsb' 0 8)

/-- The header of a record whose images are given, check byte included (R104, R105). -/
def recordHeader (kind ctx byte1 : Byte) (len : Nat) (seq inst line link : Word) (images : List Word) : List Word :=
  let rest := [BitVec.ofNat 32 len, seq, inst, line, link]
  let crc := recordCrc (headerWord0 kind ctx byte1 0 :: (rest ++ images))
  headerWord0 kind ctx byte1 crc :: rest

/-- Masked line writes that put `words` at ring position `pos` onward, one for each ring line that holds one or more
of them, in ascending order, every lane of those words set (R109). -/
def ringWrites (st : Straps) (pos : Nat) : List Word → List LineWrite
  | [] => []
  | w :: ws =>
    let here : WordWrite := { pos := wordPos (ringAddr st pos), lanes := 15, data := w }
    match ringWrites st (pos + 1) ws with
    | [] => [{ line := ringLine st pos, words := [here] }]
    | lw :: rest =>
      if lw.line = ringLine st pos then { lw with words := here :: lw.words } :: rest
      else { line := ringLine st pos, words := [here] } :: lw :: rest

/-- The writes of a record at `pos`: the images, then the header (R109). -/
def recordWrites (st : Straps) (pos : Nat) (header images : List Word) : List LineWrite :=
  ringWrites st (pos + Config.headerLength) images ++ ringWrites st pos header

/-- A ring position advanced by a record's length, 0 at R (R110, R116). -/
def ringAdvance (ring pos len : Nat) : Nat := if ring ≤ pos + len then 0 else pos + len

/-! ### Appending -/

/-- Requests the first of the append's writes, for the appender's requester (R109). -/
def Device.requestAppendWrite (d : Device) (a : Append) : Device :=
  match a.writes with
  | [] => d
  | w :: _ => d.request (.write (.append a.who) w)

/-- The record's previous link: the context's newest record position as the append begins; none for OPEN (R88, R93,
R129, R141). -/
def Device.linkFor (d : Device) (r : RecordReq) : Word :=
  match r.kind, (d.ctx r.ctx).newest with
  | .openRec, _ => Config.noLink
  | _, some p => BitVec.ofNat 32 p
  | _, none => Config.noLink

/-- The record is placed at `pos` with the next sequence number, and its first write is requested (R106, R108). -/
def Device.placeRecord (d : Device) (who : Appender) (r : RecordReq) (pos : Nat) : Device :=
  let header := recordHeader (BitVec.ofNat 8 r.kind.code) (BitVec.ofNat 8 r.ctx.number) r.byte1 r.length
    d.journal.nextSeq r.inst r.line (d.linkFor r) r.images
  let a : Append := { who := who, req := r, padLen := none, pos := pos, seq := d.journal.nextSeq,
                      writes := recordWrites d.part.straps pos header r.images }
  Device.requestAppendWrite { d with journal := { d.journal with append := some a } } a

/-- A PAD of `r` words is appended first, at the head (R108). -/
def Device.placePad (d : Device) (who : Appender) (req : RecordReq) (r : Nat) : Device :=
  let header := recordHeader (BitVec.ofNat 8 RecKind.pad.code) 0 0 r d.journal.nextSeq 0 0 Config.noLink []
  let a : Append := { who := who, req := req, padLen := some r, pos := d.journal.head, seq := d.journal.nextSeq,
                      writes := recordWrites d.part.straps d.journal.head header [] }
  Device.requestAppendWrite { d with journal := { d.journal with append := some a } } a

/-- The `r` words to the ring end are skipped without being written (R108). -/
def Device.skipRingEnd (d : Device) (r : Nat) : Device :=
  let j := d.journal
  Device.noteFree
    { d with journal := { j with
        head := 0
        liveTail := if j.liveTail = j.head then 0 else j.liveTail
        endGap := r } } d.free

/-- An append begins: the record is placed at the head, behind a PAD, or behind a skip (R107, R108). -/
def Device.beginAppend (d : Device) (who : Appender) (req : RecordReq) : Device :=
  let r := d.ring - d.journal.head
  if req.length ≤ r then d.placeRecord who req d.journal.head
  else if Config.headerLength ≤ r then d.placePad who req r
  else (d.skipRingEnd r).placeRecord who req 0

/-- An appender requests an append: it begins, or waits behind the one in hand (R107). -/
def Device.requestAppend (d : Device) (who : Appender) (req : RecordReq) : Device :=
  match d.journal.append with
  | none => d.beginAppend who req
  | some _ => { d with journal := { d.journal with appendWaiting := some (who, req) } }

/-- The request that waits is begun when the append in hand has completed (R107). -/
def Device.beginWaitingAppend (d : Device) : Device :=
  match d.journal.appendWaiting with
  | none => d
  | some (who, req) =>
    Device.beginAppend { d with journal := { d.journal with appendWaiting := none } } who req

/-- A PAD completes: the head becomes 0, the end gap the PAD's length, the next sequence number rises, the tail record
may be set, and the record is placed at 0 (R108, R110). -/
def Device.padComplete (d : Device) (a : Append) (r : Nat) : Device :=
  let j := d.journal
  let tail := if a.pos = j.liveTail then some { kind := .pad, ctx := none, inst := 0, seq := a.seq : TailId }
              else j.tailRec
  let d1 := Device.noteFree
    { d with journal := { j with
        head := 0, endGap := r, nextSeq := j.nextSeq + 1, tailRec := tail, append := none } } d.free
  d1.placeRecord a.who a.req 0

/-- Reserved words that a record's completion consumes (R110). -/
def RecordReq.settles (r : RecordReq) : Nat :=
  match r.kind with
  | .before => Config.loggedReservation * r.members
  | .openRec | .commit | .done => Config.closingReservation
  | .pad => 0

/-- The journal controller's part of a record's completion (R110): the head advances, the next sequence number rises,
the tail record may be set, the reservation is settled. -/
def Device.recordLanded (d : Device) (a : Append) : Device :=
  let j := d.journal
  let tail := if a.pos = j.liveTail then
      some { kind := a.req.kind, ctx := some a.req.ctx, inst := a.req.inst, seq := a.seq : TailId }
    else j.tailRec
  Device.noteFree
    { d with journal := { j with
        head := ringAdvance d.ring a.pos a.req.length
        nextSeq := j.nextSeq + 1
        tailRec := tail
        reserved := j.reserved - a.req.settles
        append := none } } d.free

/-! ### The anchor writer -/

/-- The values of the anchor line (R118): signature, R, tail, the sequence number expected there, next instance. -/
def anchorWords (ring tail : Nat) (seq inst : Word) : List Word :=
  let ws := [Config.anchorSignature, BitVec.ofNat 32 ring, BitVec.ofNat 32 tail, seq, inst, 0, 0]
  ws ++ [(crc8 (ws.flatMap wordBytes)).zeroExtend 32]

/-- The sequence number expected at the live tail (R118). While a pass has moved the live tail and not stopped, no tail
record is set for it yet (R116), and the number is one more than that of the record last passed (DEDUCED, log 38). -/
def Journal.tailSeq (j : Journal) : Word :=
  match j.pass.bind (·.expected), j.tailRec with
  | some q, _ => q
  | none, some t => t.seq
  | none, none => j.nextSeq

/-- An anchor write is issued (R118-R120, R124, R181): a FORMAT's carries tail 0, the next sequence number and
instance 1; every other the live tail. -/
def Device.issueAnchor (d : Device) (why : AnchorUse) : Device :=
  let j := d.journal
  let tail := if why = .format then 0 else j.liveTail
  let words := if why = .format then anchorWords d.ring 0 j.nextSeq 1
               else anchorWords d.ring j.liveTail j.tailSeq j.nextInst
  let w : LineWrite := { line := journalBase d.part.straps
                         words := (List.finRange 8).map fun i => { pos := i, lanes := 15, data := words.getD i.val 0 } }
  Device.request { d with journal := { j with anchor := some { tail := tail, why := why } } }
    (.write (.anchor (decide (why ≠ .unforced))) w)

/-- A forced anchor write for a forced reclaim: issued at once, or pending behind the write in flight (R120). -/
def Device.requestForcedAnchor (d : Device) : Device :=
  match d.journal.anchor with
  | none => d.issueAnchor .forced
  | some _ => { d with journal := { d.journal with forcedPending := true } }

/-! ### Retirement -/

/-- A record is finished when it is a PAD, its context is FREE, or its context holds another instance (R113). -/
def Device.finished (d : Device) (t : TailId) : Bool :=
  match t.kind, t.ctx with
  | .pad, _ => true
  | _, some c => decide ((d.ctx c).state = .free) || decide ((d.ctx c).inst ≠ t.inst)
  | _, none => false

/-- Reclaim is possible (R113). -/
def Device.reclaimPossible (d : Device) : Bool :=
  let j := d.journal
  decide (j.cond = .valid) &&
    (decide (j.liveTail ≠ j.anchoredTail) ||
      (decide (j.liveTail ≠ j.head) && match j.tailRec with
        | some t => d.finished t
        | none => false))

/-- A pass stops (R117, R119, R114): the debt rises by 1 if it moved the live tail; a pass of a forced reclaim asks for
a forced anchor write, another may call for an unforced one, in RUNNING only. -/
def Device.passStop (d : Device) (p : Pass) : Device :=
  let j := d.journal
  let rises := decide (p.start ≠ j.liveTail) && decide (j.debt < Config.debtCap)
  let debt := if rises then j.debt + 1 else j.debt
  if j.reclaim = .inPass then
    Device.requestForcedAnchor { d with journal := { j with pass := none, debt := debt, reclaim := .awaitingAnchor } }
  else
    let d1 := { d with journal := { j with pass := none, debt := debt } }
    if rises ∧ d.mgmt.settings.anchorDefer < debt ∧ j.anchor = none ∧ d.part.state = .running then
      d1.issueAnchor .unforced
    else d1

/-- Requests the header line that holds ring position `pos` (R116). -/
def Device.requestHeader (d : Device) (pos : Nat) : Device :=
  d.request (.read .header (ringLine d.part.straps pos))

/-- Steps 1 to 3 of R116 for the running pass `p`: it stops at the head, goes from the ring end to 0, or requests the
header at the live tail. -/
def Device.passRun (d : Device) (p : Pass) : Device :=
  let j := d.journal
  if j.liveTail = j.head then Device.passStop { d with journal := { j with tailRec := none } } p
  else if d.ring - j.liveTail < Config.headerLength then
    if j.head = 0 then Device.passStop { d with journal := { j with liveTail := 0, tailRec := none } } p
    else Device.requestHeader
      { d with journal := { j with liveTail := 0, pass := some { p with words := [] } } } 0
  else Device.requestHeader { d with journal := { j with pass := some { p with words := [] } } } j.liveTail

/-- A pass begins at the live tail (R115, R116). -/
def Device.beginPass (d : Device) : Device := d.passRun { start := d.journal.liveTail, words := [], expected := none }

/-- When a pass has stopped with a further pass requested, a new pass begins (R115). -/
def Device.passNext (d : Device) : Device :=
  if d.journal.pass = none ∧ d.journal.passAgain = true then
    Device.beginPass { d with journal := { d.journal with passAgain := false } }
  else d

/-- A retirement pass is requested by the finish of an instance (R115): in RUNNING and STARTING, with the condition
VALID (R123); in HOLDING the request is discarded (R127). -/
def Device.requestPass (d : Device) : Device :=
  if (d.part.state = .running ∨ d.part.state = .starting) ∧ d.journal.cond = .valid then
    match d.journal.pass with
    | none => d.beginPass
    | some _ => { d with journal := { d.journal with passAgain := true } }
  else d

/-- A forced reclaim is requested (R114): begun with a new pass, or with the running pass, and then its own request for a
pass flags a further one (R115, log 16); merged into one in its pass stage; or noted as a further one. -/
def Device.requestReclaim (d : Device) : Device :=
  match d.journal.reclaim with
  | .inPass => d
  | .awaitingAnchor => { d with journal := { d.journal with reclaimAgain := true } }
  | .idle =>
    match d.journal.pass with
    | none => Device.beginPass { d with journal := { d.journal with reclaim := .inPass } }
    | some _ => { d with journal := { d.journal with reclaim := .inPass, passAgain := true } }

/-- The forced request is satisfied: its reclaim ends, and a further one begins if requested (R114, R121). -/
def Device.endReclaim (d : Device) : Device :=
  let d1 := { d with journal := { d.journal with reclaim := .idle, reclaimAgain := false } }
  if d.journal.reclaimAgain then d1.requestReclaim else d1

/-- The journal controller's part of an anchor write's completion that is not a FORMAT's (R121): the anchored tail
moves, the debt clears, the end gap clears when the tail has passed the ring end. -/
def Device.anchorLanded (d : Device) (w : AnchorWrite) : Device :=
  let j := d.journal
  { d with journal := { j with
      anchoredTail := w.tail
      debt := 0
      endGap := if w.tail < j.anchoredTail then 0 else j.endGap
      anchor := none } }

/-- FORMAT's anchor write completes (R125). -/
def Device.formatLanded (d : Device) : Device :=
  let j := d.journal
  { d with journal := { j with
      head := 0, liveTail := 0, anchoredTail := 0, tailRec := none, reserved := 0, endGap := 0, nextInst := 1,
      debt := 0, cond := .valid, formatting := false, anchor := none } }

/-- What the anchor writer does next: a FORMAT's write that had to wait (R124); a pending forced request, satisfied if
the write carried the live tail as it now stands, else issued (R120); the end of the forced write's own reclaim. -/
def Device.anchorNext (d : Device) (w : AnchorWrite) : Device :=
  if d.journal.formatting then d.issueAnchor .format
  else if d.journal.forcedPending then
    let d1 := { d with journal := { d.journal with forcedPending := false } }
    if w.tail = d.journal.liveTail then d1.endReclaim else d1.issueAnchor .forced
  else if w.why = .forced then d.endReclaim
  else d

/-! ### Reading headers -/

/-- The identity in a header's words 0 to 3 (R104); absent where no device wrote it. -/
def headerIdentity (words : List Word) : Option TailId :=
  let w0 := words.getD 0 0
  match kindOfCode (w0.extractLsb' 24 8), ctxOfByte (w0.extractLsb' 16 8) with
  | some .pad, _ => some { kind := .pad, ctx := none, inst := words.getD 3 0, seq := words.getD 2 0 }
  | some k, some c => some { kind := k, ctx := some c, inst := words.getD 3 0, seq := words.getD 2 0 }
  | _, _ => none

/-- The length in a header's word 1 (R104). -/
def headerLengthOf (words : List Word) : Nat := (words.getD 1 0).toNat

/-- Step 4 of R116: the live tail advances past a finished record; a PAD takes it to 0. -/
def Device.retire (d : Device) (t : TailId) (len : Nat) : Device :=
  let j := d.journal
  let next := if t.kind = .pad then 0 else ringAdvance d.ring j.liveTail len
  { d with journal := { j with liveTail := next } }

/-- A pass in HOLDING stops after the header in hand (R127). -/
def Device.passHalt (d : Device) (p : Pass) : Device :=
  if d.journal.liveTail = d.journal.head then
    Device.passStop { d with journal := { d.journal with tailRec := none } } p
  else d.passStop p

end Sys2Proof.Machine
end

