-- ==== Sys2Proof/Machine/Engine.lean ====
section
/-! DEFINITION. The write queue and the write engine (R83-R100), the rollback engine's selection (R135, R137) and the
finish of an instance (R59, R75). -/

namespace Sys2Proof.Machine

/-! ### Queue entries (R83, R85) -/

/-- The context an entry carries; a PLAIN entry carries none. -/
def QEntry.ctx? : QEntry → Option Ctx
  | .plain _ => none
  | .covered _ c _ => some c
  | .logged _ c _ _ => some c
  | .openEntry c _ => some c
  | .commitEntry c _ => some c

/-- The masked line write of an entry that names a line. -/
def QEntry.write? : QEntry → Option LineWrite
  | .plain w => some w
  | .covered w _ _ => some w
  | .logged w _ _ _ => some w
  | .openEntry _ _ => none
  | .commitEntry _ _ => none

/-- The line an entry names (R85). -/
def QEntry.line? (e : QEntry) : Option Nat := e.write?.map (·.line)

/-- An entry of a kind that breaks the quiet condition (R10): LOGGED, COVERED, OPEN or COMMIT. -/
def QEntry.journalled : QEntry → Bool
  | .plain _ => false
  | _ => true

/-- Some entry names the line (R85). -/
def Device.queueNames (d : Device) (line : Nat) : Bool := d.queue.any fun e => decide (e.line? = some line)

/-- The queue holds 8 entries (R84). -/
def Device.queueFull (d : Device) : Bool := decide (Config.queueSize ≤ d.queue.length)

/-- The quiet condition (R10). -/
def Device.quiet (d : Device) : Bool :=
  (d.contexts.toList.all fun e => decide (e.state = .free)) && d.queue.all fun e => !e.journalled

/-! ### Groups (R90) -/

/-- Every word of `b` lies above every word of `a`. -/
def wordsAbove (a b : WordSet) : Bool :=
  (setWords a).all fun i => (setWords b).all fun j => decide (i < j)

/-- The group grows by each entry that qualifies, up to the first that does not (R90). -/
def Group.extend (g : Group) : List QEntry → Group
  | .logged w _ inst needed :: rest =>
    if inst = g.inst ∧ w.line = g.line ∧ wordsAbove g.union needed then
      Group.extend { g with members := g.members + 1, remaining := g.remaining + 1, union := g.union ||| needed } rest
    else g
  | _ => g

/-- The group gathered from a queue with a LOGGED head (R90). -/
def gatherGroup : List QEntry → Option Group
  | .logged w c inst needed :: rest =>
    some (Group.extend { inst := inst, ctx := c, line := w.line, members := 1, remaining := 1, union := needed,
                         images := [] } rest)
  | _ => none

/-! ### The engine at the head -/

/-- Requests the data write of the entry at the head (R87, R95). -/
def Device.requestData (d : Device) : Device :=
  match d.queue.head?.bind QEntry.write? with
  | some w => d.request (.write .data w)
  | none => d

/-- The OPEN record of an entry (R88). -/
def openRecordReq (c : Ctx) (inst : Word) : RecordReq :=
  { kind := .openRec, ctx := c, inst := inst, byte1 := 0, line := 0, images := [], members := 0 }

/-- The COMMIT record of an entry (R129). -/
def commitRecordReq (c : Ctx) (inst : Word) : RecordReq :=
  { kind := .commit, ctx := c, inst := inst, byte1 := 0, line := 0, images := [], members := 0 }

/-- The BEFORE record of a group (R93). -/
def beforeRecordReq (g : Group) : RecordReq :=
  { kind := .before, ctx := g.ctx, inst := g.inst, byte1 := g.union, line := BitVec.ofNat 32 g.line,
    images := g.images, members := g.members }

/-- The engine takes up the entry at the head, or goes IDLE (R86). -/
def Device.engineNext (d : Device) : Device :=
  match d.queue with
  | [] => { d with engine := .idle }
  | .plain _ :: _ => Device.requestData { d with engine := .data }
  | .covered _ _ _ :: _ => Device.requestData { d with engine := .data }
  | .openEntry c inst :: _ => Device.requestAppend { d with engine := .openRecord } .writeEngine (openRecordReq c inst)
  | .commitEntry c inst :: _ =>
    Device.requestAppend { d with engine := .committing } .writeEngine (commitRecordReq c inst)
  | .logged w c inst needed :: rest =>
    let g := Group.extend { inst := inst, ctx := c, line := w.line, members := 1, remaining := 1, union := needed,
                            images := [] } rest
    Device.request { d with engine := .gather g } (.read .oldLine w.line)

/-- An entry has been placed: an IDLE engine takes it up; in GATHER it is considered for the group (R86, R91). -/
def Device.engineSees (d : Device) : Device :=
  match d.engine with
  | .idle => d.engineNext
  | .gather g => { d with engine := .gather ((gatherGroup d.queue).getD g) }
  | _ => d

/-- Raises the queued-entry count of the context an entry carries (R41). -/
def Device.countPlaced (d : Device) (e : QEntry) : Device :=
  match e.ctx? with
  | none => d
  | some c => d.modifyCtx c fun x => { x with queued := x.queued + 1 }

/-- Lowers it (R41). -/
def Device.countLeft (d : Device) (e : QEntry) : Device :=
  match e.ctx? with
  | none => d
  | some c => d.modifyCtx c fun x => { x with queued := x.queued - 1 }

/-- Places an entry at the tail, counts it, and shows it to the engine (R28, R41, R84, R86). -/
def Device.placeEntry (d : Device) (e : QEntry) : Device :=
  Device.engineSees (Device.countPlaced { d with queue := d.queue ++ [e] } e)

/-- The entry at the head leaves the queue (R41, R83). -/
def Device.headLeaves (d : Device) : Device :=
  match d.queue with
  | [] => d
  | e :: rest => Device.countLeft { d with queue := rest } e

/-! ### Rollback: selection -/

/-- The first list entry whose context has no queued entry; its newest record position is present (R135, R137). -/
def Device.eligible (d : Device) : List ListEntry → Option (ListEntry × Nat)
  | [] => none
  | e :: es =>
    match (d.ctx e.ctx).queued, (d.ctx e.ctx).newest with
    | 0, some p => some (e, p)
    | _, _ => d.eligible es

/-- Requests the next line of the record at the walk position, `read` words of which are read (R138). -/
def Device.requestWalkLine (d : Device) (pos read : Nat) : Device :=
  d.request (.read .walk (ringLine d.part.straps (pos + read)))

/-- The IDLE rollback engine selects in RUNNING and STARTING, and the walk begins (R135, R137). -/
def Device.select (d : Device) : Device :=
  if d.rollback.state = .idle ∧ (d.part.state = .running ∨ d.part.state = .starting) then
    match d.eligible d.rollback.list with
    | none => d
    | some (e, p) =>
      let w : Walk := { ctx := e.ctx, inst := e.inst, outcome := e.outcome, pos := p, words := [] }
      Device.requestWalkLine { d with rollback := { d.rollback with state := .read, walk := some w } } p 0
  else d

/-- An instance is appended to the rollback list, and the engine may select (R58, R134, R135). -/
def Device.appendToList (d : Device) (c : Ctx) (outcome : FinishOutcome) : Device :=
  let e : ListEntry := { ctx := c, inst := (d.ctx c).inst, outcome := outcome }
  Device.select { d with rollback := { d.rollback with list := d.rollback.list ++ [e] } }

/-- A context becomes UNDOING by ABANDON or by a lease expiry under REVOKE (R46, R52). -/
def Device.undo (d : Device) (c : Ctx) (outcome : FinishOutcome) : Device :=
  Device.appendToList
    (d.modifyCtx c fun x => { x with state := .undoing, lease := x.lease.stop, spoil := none }) c outcome

/-! ### The finish of an instance -/

/-- The entries that the finish of the instance of `c` leaves (R75): all but those that name the context and its
instance number (R66, log 36). -/
def Device.released (d : Device) (c : Ctx) : List OwnEntry :=
  d.own.filter fun e => decide (¬ (e.ctx = c ∧ e.inst = (d.ctx c).inst))

/-- Ownership entries released and the context FREE with its outcome (R59, R75, R130, R142). -/
def Device.finish (d : Device) (c : Ctx) (outcome : FinishOutcome) : Device :=
  Device.modifyCtx { d with own := d.released c } c fun x =>
    { x with state := .free, outcome := outcome, owned := 0, newest := none, lease := x.lease.stop }

/-- The context's newest record position becomes `p` (R42). -/
def Device.setNewest (d : Device) (c : Ctx) (p : Nat) : Device :=
  d.modifyCtx c fun x => { x with newest := some p }

/-- Locators of the mask's words become the positions of their images in the record at `p` (R74, R94). -/
def OwnEntry.located (e : OwnEntry) (mask : WordSet) (p : Nat) : OwnEntry :=
  let words := (setWords mask).zipIdx.foldl
    (fun v x => v.set x.1.val (some (.position (p + Config.headerLength + x.2))) x.1.isLt) e.words
  { e with words := words }

/-- The BEFORE record at `p` sets the locators of the group's line (R94). -/
def Device.setLocators (d : Device) (g : Group) (p : Nat) : Device :=
  { d with own := d.own.map fun e => if e.line = g.line ∧ e.inst = g.inst then e.located g.union p else e }

/-! ### Masked line read: the images of a word set -/

/-- The words of a set in a line that was read (R92). -/
def imagesOf (m : WordSet) (line : List Word) : List Word := (setWords m).map fun i => line.getD i.val 0

end Sys2Proof.Machine
end

