-- ==== Sys2Proof/Machine/Regions.lean ====
section
/-! DEFINITION. The region map: classification (R2-R5), validation and the copy of APPLY (R8-R10). -/

namespace Sys2Proof.Machine

/-- The mode a code names (R194). -/
def regionModeOf (c : BitVec 4) : Option RegionMode :=
  if c = 0 then some .pass else if c = 1 then some .journal else if c = 2 then some .strict
  else if c = 3 then some .readonly else none

/-- The read view a code names (R194). -/
def readViewOf (c : BitVec 2) : Option ReadView :=
  if c = 0 then some .current else if c = 1 then some .before else none

/-- An entry of size 0 is unused (R1). -/
def RegionEntry.used (e : RegionEntry) : Bool := decide (e.size ≠ 0)

/-- The first unit past an entry (R2). -/
def RegionEntry.limit (e : RegionEntry) : Nat := e.base.toNat + e.size.toNat

/-- A used entry covers unit `u` (R2). -/
def RegionEntry.covers (e : RegionEntry) (u : Nat) : Bool :=
  e.used && decide (e.base.toNat ≤ u) && decide (u < e.limit)

/-- The codes of an entry name a mode and a view (R8). -/
def RegionEntry.named (e : RegionEntry) : Bool := (regionModeOf e.mode).isSome && (readViewOf e.view).isSome

/-- Classification results (R3). -/
inductive Class where
  | outside
  | protectedArea
  | region (mode : RegionMode) (view : ReadView)
  deriving DecidableEq, Repr

/-- Check 3 and 4 of R3: the covering entry's mode and view, else PASS with CURRENT. The active table holds only
validated entries (R1), so a used entry whose codes name nothing does not arise; it covers nothing here (log 21). -/
def regionClass (u : Nat) : List RegionEntry → Class
  | [] => .region .pass .current
  | e :: es =>
    match e.covers u, regionModeOf e.mode, readViewOf e.view with
    | true, some m, some v => .region m v
    | _, _, _ => regionClass u es

/-- Classification of an address against the active table and the straps of this start (R3). -/
def Device.classify (d : Device) (addr : Word) : Class :=
  if capacity d.part.straps ≤ addr.toNat then .outside
  else if journalBase d.part.straps ≤ addr.toNat then .protectedArea
  else regionClass (addr.toNat / 0x10000) d.regions.active.toList

/-- Two used entries cover a common unit (R8). -/
def RegionEntry.overlaps (a b : RegionEntry) : Bool :=
  a.used && b.used && decide (a.base.toNat < b.limit) && decide (b.base.toNat < a.limit)

/-- An entry passes the tests of R8 that concern it alone: unused, or its codes name a mode and a view, it does not
wrap past the address space, reach beyond capacity or cover the journal area. -/
def RegionEntry.valid (st : Straps) (e : RegionEntry) : Bool :=
  !e.used || (e.named && decide (e.limit ≤ 65536) && decide (e.limit ≤ capacity st / 0x10000)
    && decide (e.limit ≤ journalBase st / 0x10000))

/-- No two used entries cover a common unit (R8). -/
def noOverlap : List RegionEntry → Bool
  | [] => true
  | e :: es => (es.all fun x => !e.overlaps x) && noOverlap es

/-- APPLY's validation of the pending table (R8). -/
def Device.pendingValid (d : Device) : Bool :=
  (d.regions.pendingTable.toList.all fun e => e.valid d.part.straps) && noOverlap d.regions.pendingTable.toList

/-- The copy that completes an APPLY (R10). -/
def Device.applyCopy (d : Device) : Device :=
  { d with regions := { d.regions with active := d.regions.pendingTable, applyWaiting := false } }

/-- While apply-waiting is set, the copy is made when the quiet condition holds (R10). -/
def Device.copyIfQuiet (d : Device) : Device :=
  if d.regions.applyWaiting ∧ d.quiet then d.applyCopy else d

end Sys2Proof.Machine
end

