-- ==== Sys2Proof/Machine/HostPort.lean ====
section
/-! DEFINITION. The host bus port: answers and waits (R18, R19, R29-R31, R36), READ (R21-R23, R78), the eleven checks of
a WRITE (R24-R28), the OPEN and COMMIT marks (R43-R45), and evaluation again (R29). -/

namespace Sys2Proof.Machine

/-! ### Answers and waits -/

/-- The cycle ends with a response code and its data (R18). -/
def Device.answer (d : Device) (code : Rsp) (data : List Word) : Device :=
  { d with host := { d.host with mode := .idle, answer := some { code := code, data := data } } }

/-- The data of a cycle answered with a code other than OKAY: 0 on every beat the device returns (R18). -/
def Cycle.zeros : Cycle → List Word
  | .read c _ => List.replicate c.blen.beats 0
  | .write _ _ => []
  | .openMark _ => [0]
  | .commitMark _ => [0]

/-- A refusal of R36: the answer, and the last refusal record overwritten. -/
def Device.refuse (d : Device) (code : Rsp) (data : List Word) (addr : Word) (ctx : BitVec 3) (kind : CycleKind) :
    Device :=
  let d1 := d.answer code data
  { d1 with host := { d1.host with refusal := { addr := addr, code := code, ctx := ctx, kind := kind } } }

/-- A READ refused (R36). -/
def Device.refuseRead (d : Device) (c : ReadCycle) (code : Rsp) : Device :=
  d.refuse code (List.replicate c.blen.beats 0) c.addr c.ctxLines .read

/-- A WRITE refused (R36). -/
def Device.refuseWrite (d : Device) (c : WriteCycle) (code : Rsp) : Device :=
  d.refuse code [] c.addr c.ctxLines .write

/-- The wait timer: running on when the cycle already waits, else started with the limit in force (R30). -/
def Device.waitTimer (d : Device) : WaitTimer :=
  match d.host.mode with
  | .waiting w => w.timer
  | _ => { limit := d.mgmt.settings.waitLimit, elapsed := 0 }

/-- The cycle waits on a condition (R19, R30). -/
def Device.waitOn (d : Device) (c : Cycle) (cond : WaitCond) : Device :=
  { d with host := { d.host with mode := .waiting { cycle := c, cond := cond, timer := d.waitTimer } } }

/-! ### Ownership lookups (R67, R68) -/

/-- The ownership entry for a line. -/
def Device.ownerOf (d : Device) (line : Nat) : Option OwnEntry := d.own.find? fun e => decide (e.line = line)

/-- The table is consulted in JOURNAL and STRICT regions (R67). -/
def Device.consult (d : Device) (mode : RegionMode) (line : Nat) : Option OwnEntry :=
  match mode with
  | .journal | .strict => d.ownerOf line
  | .pass | .readonly => none

/-- The owner counts as another: its context is not the one on the lines, or the cycle is untagged (R67). -/
def OwnEntry.foreignTo (e : OwnEntry) (lines : BitVec 3) : Bool := decide (ctxOfLines lines ≠ some e.ctx)

/-- The logged set (R65). -/
def OwnEntry.logged (e : OwnEntry) : WordSet :=
  (List.finRange 8).foldl (fun m i => if (e.words[i]).isSome then m ||| (1#8 <<< i.val) else m) 0

/-- OPEN or SPOILED (R68). -/
def CtxState.live (s : CtxState) : Bool := decide (s = .opened) || decide (s = .spoiled)

/-! ### READ -/

/-- The byte address that supplies word `i` of a line under the BEFORE view: its image if it is logged, else working
memory (R78). No locator consulted is pending (R23); one would be taken as not logged (log 21). -/
def beforeSource (st : Straps) (e : OwnEntry) (line : Nat) (i : Fin 8) : Nat :=
  match e.words[i] with
  | some (.position p) => ringAddr st p
  | _ => line + 4 * i.val

/-- The lines to read for a list of sources: the line of working memory first, then each journal line once, in the
order of the words (R23, log 15). -/
def linesToRead (line : Nat) (sources : List Nat) : List Nat :=
  let ls := (sources.map lineOf).eraseDups
  if line ∈ ls then line :: ls.erase line else ls

/-- Requests the next line of a READ in READING (R23). -/
def Device.requestHostLine (d : Device) (todo : List Nat) : Device :=
  match todo with
  | [] => d
  | l :: _ => d.request (.read .host l)

/-- The READ is served: the port moves to READING and requests its first line (R23). The wait timer of a READ that
waited runs on (R30). -/
def Device.serve (d : Device) (c : ReadCycle) (order : BurstOrder) (source : Fin 8 → Nat) : Device :=
  let words := beatWords c.addr c.blen order
  let inLineOrder := (List.finRange 8).filter fun i => decide (i ∈ words)
  let todo := linesToRead (lineOf c.addr.toNat) (inLineOrder.map source)
  let timer := match d.host.mode with
    | .waiting w => some w.timer
    | _ => none
  let r : Reading := { cycle := c, timer := timer, sources := words.map source, todo := todo, got := [] }
  Device.requestHostLine { d with host := { d.host with mode := .reading r } } todo

/-- One evaluation of a READ in RUNNING (R21-R23). -/
def Device.evalRead (d : Device) (c : ReadCycle) (order : BurstOrder) : Device :=
  if badTag c.ctxLines then d.refuseRead c .badTag
  else match d.classify c.addr with
  | .outside => d.refuseRead c .outside
  | .protectedArea => d.refuseRead c .protectedArea
  | .region mode view =>
    let line := lineOf c.addr.toNat
    let plain : Fin 8 → Nat := fun i => line + 4 * i.val
    if d.queueNames line then d.waitOn (.read c order) (.readAfterWrite line)
    else match d.consult mode line with
    | none => d.serve c order plain
    | some e =>
      let st := (d.ctx e.ctx).state
      let foreign := e.foreignTo c.ctxLines
      if st = .undoing ∨ (st = .closing ∧ foreign) then d.waitOn (.read c order) (.ownersRelease e.inst)
      else if view = .before ∧ foreign ∧ st.live then d.serve c order (beforeSource d.part.straps e line)
      else d.serve c order plain

/-! ### WRITE -/

/-- The line write of a WRITE (R84). -/
def lineWriteOf (c : WriteCycle) (order : BurstOrder) : LineWrite :=
  { line := lineOf c.addr.toNat, words := writtenWords c order }

/-- Step 11 for a PLAIN or COVERED entry (R28). -/
def Device.admitEntry (d : Device) (c : WriteCycle) (order : BurstOrder) (e : QEntry) : Device :=
  if d.queueFull then d.waitOn (.write c order) .queueSpace
  else (d.placeEntry e).answer .okay []

/-- Sets a pending locator for each word of `needed` (R72, R73). -/
def OwnEntry.withPending (e : OwnEntry) (needed : WordSet) : OwnEntry :=
  let words := (setWords needed).foldl (fun v i => v.set i.val (some Locator.pending) i.isLt) e.words
  { e with words := words }

/-- Actions 1 and 2 of R28: the line's entry is allocated if there is none, and the needed words join the logged set
(R72, R73). -/
def Device.logWords (d : Device) (line : Nat) (c : Ctx) (inst : Word) (needed : WordSet) : Device :=
  match d.ownerOf line with
  | none =>
    let e : OwnEntry := { line := line, ctx := c, inst := inst, words := Vector.replicate 8 none }
    Device.modifyCtx { d with own := d.own ++ [e.withPending needed] } c fun x => { x with owned := x.owned + 1 }
  | some _ =>
    { d with own := d.own.map fun e => if e.line = line then e.withPending needed else e }

/-- The context is spoiled by a write answered NO_ROOM (R56). -/
def Device.spoil (d : Device) (c : Ctx) (cause : SpoilCause) : Device :=
  d.modifyCtx c fun x => { x with state := .spoiled, spoil := some cause }

/-- Steps 10 and 11 for a LOGGED write (R27, R28). -/
def Device.admitLogged (d : Device) (c : WriteCycle) (order : BurstOrder) (x : Ctx) (needed : WordSet) : Device :=
  let lw := lineWriteOf c order
  let inst := (d.ctx x).inst
  if d.free < (Config.loggedReservation : Int) then
    if d.reclaimPossible then Device.requestReclaim (d.waitOn (.write c order) .journalRoom)
    else Device.refuseWrite (d.spoil x .journalFull) c .noRoom
  else if d.queueFull then d.waitOn (.write c order) .queueSpace
  else
    (((d.logWords lw.line x inst needed).reserve Config.loggedReservation).placeEntry
      (.logged lw x inst needed)).answer .okay []

/-- Steps 9 to 11: kind, room and queue space for a write of the OPEN context `x` (R26-R28). -/
def Device.admitTagged (d : Device) (c : WriteCycle) (order : BurstOrder) (x : Ctx) : Device :=
  let lw := lineWriteOf c order
  let written := wordSetOf lw.words
  match d.ownerOf lw.line with
  | some e =>
    let needed := written &&& ~~~ e.logged
    if needed = 0 then d.admitEntry c order (.covered lw x (d.ctx x).inst)
    else d.admitLogged c order x needed
  | none =>
    if Config.ownershipSize ≤ d.own.length then Device.refuseWrite (d.spoil x .ownershipFull) c .noRoom
    else d.admitLogged c order x written

/-- Steps 7 to 11 of a WRITE in a JOURNAL or STRICT region (R25). -/
def Device.admitByTag (d : Device) (c : WriteCycle) (order : BurstOrder) (mode : RegionMode) : Device :=
  match ctxOfLines c.ctxLines with
  | none =>
    if mode = .strict then d.refuseWrite c .untagged else d.admitEntry c order (.plain (lineWriteOf c order))
  | some x =>
    if (d.ctx x).state = .opened then d.admitTagged c order x else d.refuseWrite c .state

/-- Steps 6 to 11 of a WRITE in a JOURNAL or STRICT region (R25, R68). -/
def Device.admitJournalled (d : Device) (c : WriteCycle) (order : BurstOrder) (mode : RegionMode) : Device :=
  match d.ownerOf (lineOf c.addr.toNat) with
  | some e =>
    if e.foreignTo c.ctxLines then
      if (d.ctx e.ctx).state.live then d.refuseWrite c .conflict
      else d.waitOn (.write c order) (.ownersRelease e.inst)
    else d.admitByTag c order mode
  | none => d.admitByTag c order mode

/-- One evaluation of a WRITE in RUNNING (R24-R28). -/
def Device.evalWrite (d : Device) (c : WriteCycle) (order : BurstOrder) : Device :=
  if badTag c.ctxLines then d.refuseWrite c .badTag
  else match d.classify c.addr with
  | .outside => d.refuseWrite c .outside
  | .protectedArea => d.refuseWrite c .protectedArea
  | .region mode _ =>
    if mode = .readonly then d.refuseWrite c .readonly
    else if writtenWords c order = [] then d.answer .okay []
    else if mode = .pass then d.admitEntry c order (.plain (lineWriteOf c order))
    else d.admitJournalled c order mode

/-! ### Marks -/

/-- A MARK answered OKAY with the reply word of the context as it stands (R33, R35). -/
def Device.reply (d : Device) (c : Ctx) (r : ReplyResult) : Device := d.answer .okay [replyWord r (d.ctx c)]

/-- The instance number given, and the counter after it; 0 is not given (R39). -/
def takeInstance (next : Word) : Word × Word := if next = 0 then (1, 2) else (next, next + 1)

/-- The admission of an OPEN (R43). -/
def Device.admitOpen (d : Device) (c : Ctx) : Device :=
  let d1 := d.reserve Config.openReservation
  let taken := takeInstance d1.journal.nextInst
  let d2 := { d1 with journal := { d1.journal with nextInst := taken.2 } }
  let d3 := d2.modifyCtx c fun x =>
    { x with state := .opened, inst := taken.1, lease := d2.freshLease, leaseExpired := false, spoil := none,
             owned := 0, newest := none }
  (d3.placeEntry (.openEntry c taken.1)).reply c .opened

/-- One evaluation of an OPEN in RUNNING (R11, R43, R44). -/
def Device.evalOpen (d : Device) (c : Ctx) : Device :=
  if (d.ctx c).state ≠ .free then d.reply c .busy
  else if d.journal.cond ≠ .valid then d.reply c .unavailable
  else if d.regions.applyWaiting then d.reply c .deferred
  else if d.free < (Config.openReservation : Int) then
    if d.reclaimPossible then Device.requestReclaim (d.waitOn (.openMark c) .journalRoom) else d.reply c .noRoom
  else if d.queueFull then d.waitOn (.openMark c) .queueSpace
  else d.admitOpen c

/-- The COMMIT is taken (R45): the context is CLOSING, the entry is placed, and the cycle waits for completion. -/
def Device.takeCommit (d : Device) (c : Ctx) : Device :=
  let d1 := d.modifyCtx c fun x => { x with state := .closing, lease := x.lease.stop, commitWaiter := true }
  let d2 := d1.waitOn (.commitMark c) (.commitCompletion c)
  d2.placeEntry (.commitEntry c (d.ctx c).inst)

/-- One evaluation of a COMMIT in RUNNING (R45). -/
def Device.evalCommit (d : Device) (c : Ctx) : Device :=
  match (d.ctx c).state with
  | .opened => if d.queueFull then d.waitOn (.commitMark c) .queueSpace else d.takeCommit c
  | .spoiled => d.reply c .refused
  | .free | .closing | .undoing => d.reply c .busy

/-! ### Evaluation, and evaluation again -/

/-- One evaluation of a cycle in RUNNING. -/
def Device.evaluate (d : Device) : Cycle → Device
  | .read c o => d.evalRead c o
  | .write c o => d.evalWrite c o
  | .openMark c => d.evalOpen c
  | .commitMark c => d.evalCommit c

/-- The waiting cycle is evaluated again if its wait condition is one of those that `ended` (R29). -/
def Device.wake (d : Device) (ended : WaitCond → Bool) : Device :=
  match d.host.mode with
  | .waiting w => if ended w.cond then d.evaluate w.cycle else d
  | _ => d

/-- A waiting cycle would be evaluated again. -/
def Device.wakes (d : Device) (ended : WaitCond → Bool) : Bool :=
  match d.host.mode with
  | .waiting w => ended w.cond
  | _ => false

/-- The host bus port and the region map see what a step brought about: the waiting cycle is evaluated again, and a
waiting APPLY is copied if the quiet condition holds. Where one step brings both, their order is a free value
(log 14). -/
def Device.observe (d : Device) (ended : WaitCond → Bool) : Device :=
  if d.regions.applyWaiting ∧ d.quiet ∧ d.wakes ended then
    let d1 := { d with drawn := d.drawn + 1 }
    if Config.copyFirst d.drawn then d1.applyCopy.wake ended else (d1.wake ended).copyIfQuiet
  else d.copyIfQuiet.wake ended

/-- The wait conditions that the departure of entry `e` ends (R85). -/
def endedByDeparture (e : QEntry) : WaitCond → Bool
  | .queueSpace => true
  | .readAfterWrite l => decide (e.line? = some l)
  | .ownersRelease _ | .journalRoom | .commitCompletion _ => false

/-- The wait condition that the release of an instance's entries ends (R76). -/
def endedByRelease (inst : Word) : WaitCond → Bool
  | .ownersRelease i => decide (i = inst)
  | .queueSpace | .readAfterWrite _ | .journalRoom | .commitCompletion _ => false

/-- The wait condition that a rise of free space or an anchor write's completion ends (R29). -/
def endedByRoom : WaitCond → Bool
  | .journalRoom => true
  | .queueSpace | .readAfterWrite _ | .ownersRelease _ | .commitCompletion _ => false

end Sys2Proof.Machine
end

