-- ==== Sys2Proof/Machine/Scan.lean ====
section
/-! DEFINITION. The anchor phase's findings (R122, R175) and the recovery scanner (R176-R180). -/

namespace Sys2Proof.Machine

/-! ### The anchor line -/

/-- What an anchor line says (R122). -/
def anchorCondition (ring : Nat) (line : List Word) : JournalCondition :=
  let good := decide ((line.getD 7 0).extractLsb' 0 8 = crc8 ((line.take 7).flatMap wordBytes))
  if line.getD 0 0 ≠ Config.anchorSignature then .blank
  else if good ∧ (line.getD 1 0).toNat = ring ∧ (line.getD 2 0).toNat < ring then .valid
  else .damaged

/-- The journal condition and the pointers are set from the anchor line (R122). -/
def Device.setCondition (d : Device) (line : List Word) : Device :=
  let j := d.journal
  match anchorCondition d.ring line with
  | .valid =>
    let tail := (line.getD 2 0).toNat
    { d with journal := { j with
        cond := .valid, head := tail, liveTail := tail, anchoredTail := tail, nextSeq := line.getD 3 0
        nextInst := line.getD 4 0 } }
  | .blank => { d with journal := { j with cond := .blank } }
  | .damaged => Device.raise { d with journal := { j with cond := .damaged } } .journalDamaged

/-! ### Fields of a record as read (R104) -/

def recKindByte (ws : List Word) : Byte := (ws.getD 0 0).extractLsb' 24 8
def recCtxByte (ws : List Word) : Byte := (ws.getD 0 0).extractLsb' 16 8
def recByte1 (ws : List Word) : Byte := (ws.getD 0 0).extractLsb' 8 8
def recLength (ws : List Word) : Nat := (ws.getD 1 0).toNat
def recSeq (ws : List Word) : Word := ws.getD 2 0
def recInst (ws : List Word) : Word := ws.getD 3 0
def recLine (ws : List Word) : Word := ws.getD 4 0
def recLink (ws : List Word) : Word := ws.getD 5 0

/-! ### The tests of R177 -/

/-- Test 2: the length is right for the kind, at position `pos`. -/
def lengthGood (ring pos : Nat) (k : RecKind) (ws : List Word) : Bool :=
  let len := recLength ws
  match k with
  | .openRec | .commit | .done => decide (len = 6) && decide (pos + len ≤ ring)
  | .before =>
    decide (7 ≤ len) && decide (len ≤ 14) && decide (setSize (recByte1 ws) = len - 6) && decide (pos + len ≤ ring)
  | .pad => decide (len = ring - pos)

/-- The words of a record that are read: a PAD's header alone (R103). -/
def wordsToScan (k : RecKind) (ws : List Word) : Nat :=
  match k with
  | .pad => Config.headerLength
  | _ => recLength ws

/-- Test 5: the fixed fields hold their values. -/
def fieldsGood (k : RecKind) (ws : List Word) : Bool :=
  match k with
  | .pad =>
    decide (recCtxByte ws = 0) && decide (recByte1 ws = 0) && decide (recInst ws = 0) && decide (recLine ws = 0)
      && decide (recLink ws = Config.noLink)
  | .openRec =>
    decide (recInst ws ≠ 0) && decide (recByte1 ws = 0) && decide (recLine ws = 0)
      && decide (recLink ws = Config.noLink)
  | .before => decide (recInst ws ≠ 0)
  | .commit => decide (recInst ws ≠ 0) && decide (recByte1 ws = 0) && decide (recLine ws = 0)
  | .done =>
    decide (recInst ws ≠ 0) && decide (2 ≤ (recByte1 ws).toNat) && decide ((recByte1 ws).toNat ≤ 4)
      && decide (recLine ws = 0)

/-- Test 6: a BEFORE record's line address. -/
def addressGood (st : Straps) (k : RecKind) (ws : List Word) : Bool :=
  match k with
  | .before =>
    decide ((recLine ws).toNat % 32 = 0) && decide ((recLine ws).toNat < capacity st)
      && decide ((recLine ws).toNat < journalBase st)
  | _ => true

/-- Test 7: the context is 1-4; an OPEN's context has no open instance. -/
def Scan.contextGood (s : Scan) (k : RecKind) (ws : List Word) : Bool :=
  match k, ctxOfByte (recCtxByte ws) with
  | .pad, _ => true
  | _, none => false
  | .openRec, some c => (s.openInst[c]).isNone
  | _, some _ => true

/-- Test 8: the instance is not the one in the context's closed note. -/
def Scan.notClosed (s : Scan) (k : RecKind) (ws : List Word) : Bool :=
  match k, ctxOfByte (recCtxByte ws) with
  | .pad, _ => true
  | _, none => true
  | _, some c => match s.closed[c] with
    | some n => decide (n.inst ≠ recInst ws)
    | none => true

/-- The open instance that a record belongs to: the one of its context, if the numbers agree. -/
def Scan.openOf (s : Scan) (ws : List Word) : Option (Ctx × OpenInst) :=
  match ctxOfByte (recCtxByte ws) with
  | none => none
  | some c => match s.openInst[c] with
    | some o => if o.inst = recInst ws then some (c, o) else none
    | none => none

/-- Test 9: the link of a BEFORE, COMMIT or DONE of the open instance. -/
def Scan.linkGood (s : Scan) (k : RecKind) (ws : List Word) : Bool :=
  match k, s.openOf ws with
  | .before, some (_, o) | .commit, some (_, o) | .done, some (_, o) => decide ((recLink ws).toNat = o.lastSeen)
  | _, _ => true

/-- Words that a record adds to the scanned length (R178). -/
def scannedWords (k : RecKind) (ws : List Word) : Nat :=
  match k with
  | .pad => 0
  | _ => recLength ws

/-- Instances unfinished after a record is taken (R178). -/
def Scan.unfinishedAfter (s : Scan) (k : RecKind) (ws : List Word) : Nat :=
  match k, s.openOf ws with
  | .openRec, _ => s.order.length + 1
  | .commit, some _ | .done, some _ => s.order.length - 1
  | _, _ => s.order.length

/-- Test 10: the limit. -/
def Scan.limitGood (ring : Nat) (s : Scan) (k : RecKind) (ws : List Word) : Bool :=
  decide (s.length + scannedWords k ws + 6 * s.unfinishedAfter k ws ≤ ring - Config.wrapMargin)

/-- Tests 3 to 10, in order: the first that fails (R177). -/
def Scan.failure (st : Straps) (s : Scan) (k : RecKind) (ws : List Word) : Option StopReason :=
  if !recordChecks ws then some .check
  else if recSeq ws ≠ s.expected then some .sequence
  else if !fieldsGood k ws then some .field
  else if !addressGood st k ws then some .address
  else if !s.contextGood k ws then some .context
  else if !s.notClosed k ws then some .closed
  else if !s.linkGood k ws then some .link
  else if !s.limitGood (ringLength st) k ws then some .limit
  else none

/-- A record with sequence number `seq` that tests 1 to 4 pass stands at ring position `p` of a DRAM (R177). -/
def Memory.recordStands (m : Memory) (st : Straps) (p : Nat) (seq : Word) : Bool :=
  let words := fun (n : Nat) => (List.range n).map fun k => m.readWord (ringAddr st (p + k))
  let header := words Config.headerLength
  match kindOfCode (recKindByte header) with
  | none => false
  | some k =>
    lengthGood (ringLength st) p k header && recordChecks (words (wordsToScan k header))
      && decide (recSeq header = seq)

/-! ### Taking a record (R178) -/

/-- The order of instance numbers: `x` is higher than `y` (R178). -/
def higher (x y : Word) : Bool := decide (1 ≤ (x - y).toNat) && decide ((x - y).toNat < 2 ^ 31)

/-- The highest instance seen, after a record of instance `i`. -/
def highestOf (h : Option Word) (i : Word) : Option Word :=
  match h with
  | none => some i
  | some x => if higher i x then some i else some x

/-- The outcome that a closing record gives. -/
def closingOutcome (k : RecKind) (ws : List Word) : FinishOutcome :=
  match k with
  | .commit => .committed
  | _ => outcomeOfCode (recByte1 ws)

/-- What a record does to the tracking of instances (R178). -/
def Scan.track (s : Scan) (k : RecKind) (ws : List Word) : Scan :=
  match k, ctxOfByte (recCtxByte ws) with
  | .pad, _ => s
  | _, none => s
  | .openRec, some c =>
    { s with
      openInst := s.openInst.set c.val (some { inst := recInst ws, lastSeen := s.pos }) c.isLt
      order := s.order ++ [c] }
  | .before, some c =>
    match s.openOf ws with
    | some (_, o) => { s with openInst := s.openInst.set c.val (some { o with lastSeen := s.pos }) c.isLt }
    | none => s
  | .commit, some c | .done, some c =>
    let note : ClosedNote := { inst := recInst ws, outcome := closingOutcome k ws }
    let s1 := { s with closed := s.closed.set c.val (some note) c.isLt }
    match s.openOf ws with
    | some _ => { s1 with openInst := s.openInst.set c.val none c.isLt, order := s.order.filter fun x => decide (x ≠ c) }
    | none => s1

/-- A record that passed every test is taken, and the position moves past it (R178). Every taken record's instance is
compared for the highest seen, a PAD's 0 included. -/
def Scan.take (ring : Nat) (s : Scan) (k : RecKind) (ws : List Word) : Scan :=
  let s1 := s.track k ws
  let isPad := decide (k = .pad)
  { s1 with
    expected := s.expected + 1
    taken := s.taken + 1
    length := s.length + scannedWords k ws
    highest := highestOf s.highest (recInst ws)
    gap := if isPad then recLength ws else s.gap
    pos := if isPad then 0 else ringAdvance ring s.pos (recLength ws)
    words := []
    first := match s.first with
      | some t => some t
      | none => headerIdentity ws }

/-! ### Reading forward (R177) -/

/-- What one move of the scanner answers. -/
inductive ScanMove where
  | on (s : Scan)
  | read (s : Scan) (line : Nat)
  | stop (s : Scan) (why : StopReason)
  deriving DecidableEq, Repr

/-- Words of the line in hand from ring position `p` on, if it is the line that holds `p`. -/
def Scan.inHand (st : Straps) (s : Scan) (p : Nat) : List Word :=
  match s.lineInHand with
  | some (l, ws) => if l = ringLine st p then ws.drop (p % 8) else []
  | none => []

/-- Takes words from the line in hand until `n` words of the record are read, and goes on with `k`; requests the next
ring line when they do not suffice (R177). -/
def Scan.need (st : Straps) (s : Scan) (n : Nat) (k : Scan → ScanMove) : ScanMove :=
  let have_ := s.words ++ (s.inHand st (s.pos + s.words.length)).take (n - s.words.length)
  let s1 := { s with words := have_ }
  if have_.length < n then .read s1 (ringLine st (s.pos + have_.length)) else k s1

/-- One move: the ring end's skip, or the reading and testing of the record at the position (R177). The words are read
as the tests need them (log 20). -/
def Scan.move (st : Straps) (s : Scan) : ScanMove :=
  let ring := ringLength st
  if ring - s.pos < Config.headerLength then .on { s with gap := ring - s.pos, pos := 0, words := [] }
  else s.need st 1 fun s1 =>
    match kindOfCode (recKindByte s1.words) with
    | none => .stop s1 .kind
    | some k => s1.need st 2 fun s2 =>
      if !lengthGood ring s2.pos k s2.words then .stop s2 .length
      else s2.need st (wordsToScan k s2.words) fun s3 =>
        match s3.failure st k s3.words with
        | some why => .stop s3 why
        | none => .on (s3.take ring k s3.words)

/-- Moves until a line must be read or the scan stops. One line in hand never lasts for `fuel` moves (log 20). -/
def Scan.run (st : Straps) (s : Scan) : Nat → ScanMove
  | 0 => .read s (ringLine st s.pos)
  | fuel + 1 => match s.move st with
    | .on s1 => Scan.run st s1 fuel
    | .read s1 l => .read s1 l
    | .stop s1 why => .stop s1 why

/-! ### The end of SCAN and the entry to UNDO -/

/-- The next instance number after the scan: word 4 of the anchor line, or one more than the highest seen (R179). -/
def nextAfterScan (anchorNext : Word) (highest : Option Word) : Word :=
  match highest with
  | none => anchorNext
  | some h => if h = anchorNext ∨ higher h anchorNext then h + 1 else anchorNext

/-- The journal controller takes the scan's findings (R179). -/
def Journal.afterScan (j : Journal) (s : Scan) : Journal :=
  { j with
    head := s.pos
    nextSeq := s.expected
    nextInst := nextAfterScan j.nextInst s.highest
    reserved := Config.closingReservation * s.order.length
    endGap := s.gap
    debt := 0
    tailRec := if j.liveTail = s.pos then none else s.first }

/-- A context entry from the scan (R62). -/
def ContextEntry.afterScan (e : ContextEntry) (o : Option OpenInst) (n : Option ClosedNote) : ContextEntry :=
  match o, n with
  | some o, _ => { e with state := .undoing, inst := o.inst, newest := some o.lastSeen, owned := 0, queued := 0 }
  | none, some n => { e with inst := n.inst, outcome := n.outcome }
  | none, none => e

/-- The rollback list of the UNDO phase, in the order of the OPEN records (R180). -/
def Scan.listed (s : Scan) : List ListEntry :=
  s.order.map fun c =>
    { ctx := c, inst := (match s.openInst[c] with | some o => o.inst | none => 0), outcome := .recovered }

/-- The scan stops, its findings are taken, and the start enters UNDO (R62, R179, R180, R183). -/
def Device.endScan (d : Device) (s : Scan) (why : StopReason) : Device :=
  Device.select
    { d with
      journal := d.journal.afterScan s
      contexts := Vector.ofFn fun i : Fin 4 => (d.contexts[i]).afterScan (s.openInst[i]) (s.closed[i])
      rollback := { d.rollback with list := s.listed }
      part := { d.part with
        phase := some .undo
        scan := none
        report := { d.part.report with
          reason := why, stopPos := s.pos, scanned := s.taken, found := s.order.length } } }

/-- The scanner goes on from `s`: it requests its next line, or the scan stops (R177, R179). -/
def Device.scanOn (d : Device) (s : Scan) : Device :=
  match s.run d.part.straps 64 with
  | .on s1 | .read s1 _ =>
    let line := ringLine d.part.straps (s1.pos + s1.words.length)
    Device.request { d with part := { d.part with scan := some s1 } } (.read .scan line)
  | .stop s1 why => d.endScan s1 why

end Sys2Proof.Machine
end

