-- ==== Sys2Proof/Machine/PartControl.lean ====
section
/-! DEFINITION. Part control: holds (R166-R170), self-refresh entry (R159), starts (R171-R174), the end of a start
(R181, R182), RST (R160, R172), the loss of power (R173), and what every command ends with. -/

namespace Sys2Proof.Machine

/-! ### Entering HOLDING (R168) -/

/-- A hold cause is present (R167). -/
def Device.holdCause (d : Device) : Bool := d.part.pfwarn || d.part.holdFlag

/-- Clears the commit waiter flag when a COMMIT cycle ends (R34). -/
def Device.clearWaiter (d : Device) (cond : WaitCond) : Device :=
  match cond with
  | .commitCompletion c => d.modifyCtx c fun x => { x with commitWaiter := false }
  | .queueSpace | .ownersRelease _ | .journalRoom | .readAfterWrite _ => d

/-- A cycle in WAITING is answered HELD; the wait timer of a READ in READING stops (R32, R34). -/
def Device.holdHost (d : Device) : Device :=
  match d.host.mode with
  | .waiting w => Device.answer (d.clearWaiter w.cond) .held w.cycle.zeros
  | .reading r => { d with host := { d.host with mode := .reading { r with timer := none } } }
  | .stopped | .idle => d

/-- Every lease timer stops (R63). -/
def Device.stopLeases (d : Device) : Device :=
  { d with contexts := d.contexts.map fun e => { e with lease := e.lease.stop } }

/-- The access is a line read of a walk. -/
def Access.isWalkRead : Access → Bool
  | .read .walk _ => true
  | _ => false

/-- The access is a header read. -/
def Access.isHeaderRead : Access → Bool
  | .read .header _ => true
  | _ => false

/-- A walk in READ with no line read of the record granted withdraws its read and halts (R146). -/
def Device.holdRollback (d : Device) : Device :=
  match d.rollback.state, d.rollback.walk with
  | .read, some w =>
    if w.words = [] ∧ (d.port.inFlight.any Access.isWalkRead) = false then
      let d1 := d.withdraw Access.isWalkRead
      { d1 with rollback := { d1.rollback with state := .halted } }
    else d
  | _, _ => d

/-- Forced reclaims, pending requests and a FORMAT whose anchor write is not issued end (R124, R127). -/
def Device.holdRequests (d : Device) : Device :=
  let j := d.journal
  let issued := decide (j.anchor.map (·.why) = some .format)
  { d with journal := { j with
      passAgain := false, reclaim := .idle, reclaimAgain := false, forcedPending := false
      formatting := j.formatting && issued } }

/-- A pass whose header read is not granted withdraws it and stops (R127, log 18, log 19). -/
def Device.holdPass (d : Device) : Device :=
  match d.journal.pass with
  | some p =>
    if p.words = [] ∧ (d.port.inFlight.any Access.isHeaderRead) = false then
      Device.passStop (d.withdraw Access.isHeaderRead) p
    else d
  | none => d

/-- The part enters HOLDING (R168). -/
def Device.enterHolding (d : Device) : Device :=
  let d1 := { d with part := { d.part with state := .holding, scan := none } }
  d1.holdHost.stopLeases.holdRollback.holdRequests.holdPass

/-- A hold cause became present: the part enters HOLDING from RUNNING, and from STARTING outside BRINGUP (R166). -/
def Device.holdReact (d : Device) : Device :=
  match d.part.state, d.part.phase with
  | .running, _ => d.enterHolding
  | .starting, some .bringUp => d
  | .starting, _ => d.enterHolding
  | .stopped, _ | .holding, _ | .held, _ => d

/-! ### Starts (R171, R200) -/

/-- The memory port takes up BRINGUP by the state it is found in (R161, R162). -/
def MemPort.startBringUp (p : MemPort) : MemPort :=
  match p.state with
  | .unconfigured => { p with state := .bringingUp, waiting := [], inFlight := none }
  | .selfRefresh => { p with state := .exiting, owed := 0, waiting := [], inFlight := none }
  | .bringingUp | .active | .entering | .exiting => { p with waiting := [], inFlight := none }

/-- What every start clears, with the straps sampled and the report written anew (R61, R81, R100, R128, R148, R171,
R183). -/
def Device.startClear (d : Device) (kind : StartKind) (st : Straps) : Device :=
  { d with
    host := { d.host with mode := .idle }
    contexts := Vector.replicate 4 ContextEntry.cleared
    own := []
    queue := []
    engine := .idle
    journal := Journal.cleared
    rollback := { list := [], state := .idle, walk := none }
    port := d.port.startBringUp
    part := { d.part with
      state := .starting, phase := some .bringUp, kind := kind, straps := st, scan := none
      report := Report.initial kind } }

/-- What a start of kind POWER_ON or RST sets besides (R12, R36, R167, R200). -/
def Device.startDefaults (d : Device) : Device :=
  { d with
    host := { d.host with refusal := RefusalRecord.empty }
    regions := RegionMap.cleared
    part := { d.part with holdFlag := false }
    mgmt := Management.defaults .idle }

/-- A start begins (R171): at POWER_ON and RST the defaults are set, at RESTART a waiting APPLY is copied (R13). -/
def Device.beginStart (d : Device) (kind : StartKind) (st : Straps) : Device :=
  let d1 := d.startClear kind st
  match kind with
  | .powerOn | .rst => d1.startDefaults
  | .restart => d1.copyIfQuiet

/-- In HELD with both causes absent, a start of kind RESTART begins (R170). -/
def Device.restartIfFree (d : Device) (st : Straps) : Device :=
  if d.part.state = .held ∧ d.holdCause = false then d.beginStart .restart st else d

/-- The port reports that BRINGUP is complete (R161, R162, R174): ANCHOR begins with its read, or HOLDING. -/
def Device.bringUpReport (d : Device) : Device :=
  let d1 := { d with
    port := { d.port with state := .active, banks := banksClosed, owed := 0, timer := d.freshRefresh }
    part := { d.part with broughtUp := true } }
  if d1.holdCause then d1.enterHolding
  else
    Device.request { d1 with part := { d1.part with phase := some .anchor } }
      (.read .anchor (journalBase d1.part.straps))

/-- The part enters RUNNING at the end of a start (R126, R181, R182, R183). -/
def Device.enterRunning (d : Device) : Device :=
  let d1 := Device.raise
    { d with part := { d.part with
        state := .running, phase := none, report := { d.part.report with complete := true } } } .recoveryDone
  if d1.journal.cond = .valid ∧ d1.free < d1.lowThreshold then d1.raise .journalLow else d1

/-- The closing anchor write is requested in UNDO once the list is empty and no pass runs or is requested (R181). -/
def Device.closeStart (d : Device) : Device :=
  if d.part.state = .starting ∧ d.part.phase = some .undo ∧ d.rollback.list = [] ∧ d.journal.pass = none
      ∧ d.journal.passAgain = false ∧ d.journal.anchor = none then d.issueAnchor .closing
  else d

/-! ### Self-refresh entry (R159, R169) -/

/-- Every block is idle (the table of R168). -/
def Device.blocksIdle (d : Device) : Bool :=
  decide (d.host.mode = .idle) && decide (d.queue = []) && decide (d.engine = .idle)
    && (decide (d.rollback.state = .idle) || decide (d.rollback.state = .halted))
    && decide (d.journal.append = none) && decide (d.journal.appendWaiting = none)
    && decide (d.journal.pass = none) && decide (d.journal.anchor = none)

/-- Every requester but the refresh logic has no access requested and none in flight (R153). -/
def Device.requestersIdle (d : Device) : Bool :=
  decide (d.port.waiting = []) && (decide (d.port.inFlight = none) || decide (d.port.inFlight = some .refresh))

/-- In ENTERING with no access in flight the refresh timer stops and every bank is closed (R159). -/
def Device.closeBanks (d : Device) : Device :=
  if d.port.state = .entering ∧ d.port.inFlight = none then
    { d with port := { d.port with banks := banksClosed, timer := { d.port.timer with running := false } } }
  else d

/-- Part control asks for self-refresh entry at the first moment both conditions of R169 hold. -/
def Device.tryEnter (d : Device) : Device :=
  if d.part.state = .holding ∧ d.port.state = .active ∧ d.blocksIdle ∧ d.requestersIdle then
    Device.closeBanks { d with port := { d.port with state := .entering } }
  else d

/-- What every command ends with: the closing anchor write, self-refresh entry, and the grant moment (R154, R169,
R181). -/
def Device.settle (d : Device) : Device := d.closeStart.tryEnter.grant

/-! ### RST and the loss of power -/

/-- What a DRAM cannot hold after the write `w` is cut. Of the append in hand: its record complete, so that the next scan
stops at its position (R99, R109, R133, R147). Of an anchor write: a line that is neither the old nor the new one and
checks good, so that the next start finds it DAMAGED or BLANK (R118, R185). -/
def Device.cutExcludes (d : Device) (u : WriteUse) (w : LineWrite) (x : Memory) : Bool :=
  match u with
  | .append _ => match d.journal.append with
    | some a => x.recordStands d.part.straps a.pos a.seq
    | none => false
  | .anchor _ =>
    let ws := x.readLine w.line
    decide (ws ≠ d.dram.readLine w.line) && decide (ws ≠ (d.dram.writeLine w).readLine w.line)
      && decide (anchorCondition d.ring ws = .valid)
  | .data | .restore => false

/-- The DRAM after its access in flight is cut (R160). The free values of a cut write are numbered from `drawn`, which
passes a whole line (log 12). Where no write is in flight the bytes stand. A header whose first line has landed and whose
last write was not granted is then not cut any more: if its first line and the old words behind it check good by chance,
which R133 says they do not, the scan's tests decide (DEDUCED, log 34). -/
def Device.cutAccess (d : Device) : Device :=
  match d.port.inFlight with
  | some (.write u w) =>
    { d with dram := d.dram.cutAvoiding d.drawn w (d.cutExcludes u w), drawn := d.drawn + 32 }
  | _ => d

/-- The port state that RST leaves (R160). -/
def PortState.afterReset : PortState → PortState
  | .active | .entering | .selfRefresh | .exiting => .selfRefresh
  | .bringingUp | .unconfigured => .unconfigured

/-- The memory port at RST (R160). -/
def MemPort.reset (p : MemPort) : MemPort :=
  { p with
    state := p.state.afterReset, banks := banksClosed, waiting := [], inFlight := none
    timer := { p.timer with running := false } }

/-- The cycle in progress is cut without a response and the port is STOPPED (R32). -/
def Device.cutHost (d : Device) : Device :=
  let d1 := match d.host.mode with
    | .waiting w => d.clearWaiter w.cond
    | _ => d
  { d1 with host := { d1.host with mode := .stopped, answer := none } }

/-- Every block stops at once (R160, R172); a frame in progress is abandoned (R187). -/
def Device.stopAll (d : Device) : Device :=
  let d1 := d.cutAccess.cutHost.stopLeases
  { d1 with
    engine := .stopped
    rollback := { d1.rollback with state := .stopped, walk := none }
    port := d1.port.reset
    part := { d1.part with state := .stopped, phase := none, scan := none }
    mgmt := { d1.mgmt with frame := .stopped, current := none } }

/-- The DRAM after main power is lost (row POWER_LOSS): kept in self-refresh; before that as RST leaves it, or without
refresh, and then every byte is a free value (log 13). -/
def Device.afterPowerLoss (d : Device) : Device :=
  if d.port.state = .selfRefresh then d
  else
    let d1 := { d with drawn := d.drawn + 1 }
    if Config.dramLeftAsRst d.drawn then d1.cutAccess
    else { d1 with dram := { cells := [], lost := some d.drawn } }

/-- All volatile state is gone (R173); the lines RST and PFWARN keep their levels (log 3). -/
def Device.losePower (d : Device) : Device :=
  let d1 := d.afterPowerLoss
  Device.unstarted d1.dram d1.part.rst d1.part.pfwarn d1.drawn

end Sys2Proof.Machine
end

