-- ==== Sys2Proof/Machine/Management.lean ====
section
/-! DEFINITION. The management port: the item space and its read values (R192-R199), READ frames (R188, R189, R191),
the tests and the effects of WRITE frames (R6-R9, R124, R190, R194-R198). -/

namespace Sys2Proof.Machine

/-! ### Codes of the items -/

def PartState.code : PartState → Nat
  | .stopped => 0
  | .starting => 1
  | .running => 2
  | .holding => 3
  | .held => 4

def phaseCode : Option StartPhase → Nat
  | none => 0
  | some .bringUp => 1
  | some .anchor => 2
  | some .scan => 3
  | some .undo => 4

def StartKind.code : StartKind → Nat
  | .powerOn => 0
  | .rst => 1
  | .restart => 2

def JournalCondition.code : JournalCondition → Nat
  | .blank => 0
  | .valid => 1
  | .damaged => 2

def StopReason.code : StopReason → Nat
  | .none => 0
  | .kind => 1
  | .length => 2
  | .check => 3
  | .sequence => 4
  | .field => 5
  | .address => 6
  | .context => 7
  | .closed => 8
  | .link => 9
  | .limit => 10

def CycleKind.code : CycleKind → Nat
  | .read => 0
  | .write => 1
  | .mark => 2

/-- A word with the value `v` placed from bit `at_` up. -/
def field (at_ v : Nat) : Word := BitVec.ofNat 32 v <<< at_

/-! ### Read values -/

/-- Item 000h (R193). -/
def Device.partStatus (d : Device) : Word :=
  field 28 d.part.state.code ||| field 24 (phaseCode d.part.phase) ||| field 22 d.part.kind.code
    ||| field 20 d.journal.cond.code ||| field 17 (bit d.part.pfwarn) ||| field 16 (bit d.part.holdFlag)
    ||| field 8 (bit d.journal.formatting) ||| field 0 (bit d.regions.applyWaiting)

/-- The second status word of a context (R193). -/
def Device.contextWord2 (d : Device) (c : Ctx) : Word :=
  let e := d.ctx c
  field 30 (spoilCode e.spoil) ||| field 24 e.queued ||| field 20 (bit e.commitWaiter)
    ||| field 16 (bit e.newest.isSome) ||| field 8 (listPlace c d.rollback.list)

/-- The two items of a region entry (R194). -/
def RegionEntry.item (e : RegionEntry) (second : Bool) : Word :=
  if second then field 0 e.mode.toNat ||| field 8 e.view.toNat else e.base ++ e.size

/-- The settings items, 050h to 056h (R195). -/
def Settings.item (s : Settings) : Nat → Nat
  | 0 => match s.burstOrder with
    | .sequential => 0
    | .interleaved => 1
  | 1 => s.waitLimit
  | 2 => s.leaseLength
  | 3 => match s.leaseAction with
    | .report => 0
    | .revoke => 1
  | 4 => s.anchorDefer
  | 5 => s.lowWater
  | _ => s.refreshPeriod

/-- A context number as an item holds it; 0 when none was noted (R197). -/
def notedNumber (c : Option Ctx) : Nat :=
  match c with
  | some c => c.number
  | none => 0

/-- Item 090h (R199). -/
def Report.item (r : Report) : Word :=
  field 30 r.kind.code ||| field 28 r.cond.code ||| field 24 r.reason.code ||| field 16 (bit r.complete)
    ||| field 8 r.found ||| field 0 r.rolledBack

/-- The read value of an item; none where the number names no item (R192-R199). -/
def Device.readItem (d : Device) (n : Nat) : Option Word :=
  if n = 0x000 then some d.partStatus
  else if n = 0x001 then some (field 0 d.journal.head)
  else if n = 0x002 then some (field 0 d.journal.liveTail)
  else if n = 0x003 then some (field 0 d.journal.anchoredTail)
  else if n = 0x004 then some (field 0 d.used)
  else if n = 0x005 then some (field 0 d.journal.reserved)
  else if n = 0x006 then some (BitVec.ofInt 32 d.free)
  else if n = 0x007 then some d.journal.nextSeq
  else if n = 0x008 then some d.journal.nextInst
  else if n = 0x009 then some (field 16 d.journal.endGap ||| field 0 d.journal.debt)
  else if 0x010 ≤ n ∧ n ≤ 0x017 then
    let c : Ctx := Fin.ofNat 4 ((n - 0x010) / 2)
    some (if n % 2 = 0 then replyWord .status (d.ctx c) else d.contextWord2 c)
  else if 0x018 ≤ n ∧ n ≤ 0x01B then some (d.ctx (Fin.ofNat 4 (n - 0x018))).inst
  else if 0x020 ≤ n ∧ n ≤ 0x02F then
    some ((d.regions.pendingTable[(Fin.ofNat 8 ((n - 0x020) / 2))]).item (decide (n % 2 = 1)))
  else if 0x030 ≤ n ∧ n ≤ 0x03F then
    some ((d.regions.active[(Fin.ofNat 8 ((n - 0x030) / 2))]).item (decide (n % 2 = 1)))
  else if n = 0x040 then some (field 0 (bit d.regions.applyWaiting))
  else if 0x050 ≤ n ∧ n ≤ 0x056 then some (field 0 (d.mgmt.settings.item (n - 0x050)))
  else if n = 0x060 then some (field 8 (bit d.journal.formatting) ||| field 16 (bit d.part.holdFlag))
  else if n = 0x070 then some (d.mgmt.causes.zeroExtend 32)
  else if n = 0x071 then some (d.mgmt.mask.zeroExtend 32)
  else if n = 0x072 then
    some (field 0 (notedNumber d.mgmt.notedExpired) ||| field 8 (notedNumber d.mgmt.notedRevoked))
  else if n = 0x080 then some d.host.refusal.addr
  else if n = 0x081 then
    some (field 28 d.host.refusal.code.code ||| field 24 d.host.refusal.ctx.toNat
      ||| field 0 d.host.refusal.kind.code)
  else if n = 0x090 then some d.part.report.item
  else if n = 0x091 then some (field 0 d.part.report.stopPos)
  else if n = 0x092 then some (field 0 d.part.report.scanned)
  else if n = 0x0A0 then some (field 0 d.part.straps.msel.toNat ||| field 8 d.part.straps.jsel.toNat)
  else if n = 0x0A1 then some (field 0 d.ring)
  else none

/-! ### The frame as its bytes arrive -/

/-- The frame state after the bytes that have arrived (R187). A frame that declares no length has no last declared byte
and stays in DATA (log 11). -/
def framePhase (f : Frame) : FrameState :=
  let n := f.bytes.length
  if n = 0 then .command
  else if n < 3 then .item
  else match f.words with
    | none => .data
    | some w => if n < 3 + 4 * w then .data else if n < f.declared w then .check else .excess

/-- The frame goes on with the bytes taken so far, or none is in progress: then its bits are a whole new frame, those of one
whose MSS stood while the part was STOPPED included (DESIGN CHOICE, log 39). -/
def Device.continues (d : Device) (f : Frame) : Bool :=
  match d.mgmt.current with
  | none => true
  | some p => p.bytes.isPrefixOf f.bytes

/-- A READ frame's snapshot: the one taken, or the items as they stand, once its second item byte has arrived (R189). -/
def Device.snapshotFor (d : Device) (f : Frame) : Option (List (Option Word)) :=
  if f.isWrite ∨ f.bytes.length < 3 then none
  else match d.mgmt.current.bind (·.snapshot), f.words with
    | some taken, _ => some taken
    | none, some w => some ((List.range w).map fun k => d.readItem (f.item + k))
    | none, none => none

/-! ### MDO -/

/-- The bytes after the command byte that the port shifts out in a READ frame with a snapshot (R187, R189, R191). -/
def readStream (f : Frame) (snapshot : List (Option Word)) : List Byte :=
  let data := snapshot.flatMap fun v => wordBytes (v.getD 0)
  [0, 0] ++ data ++ (if f.hasCrc then [crc8 (f.bytes.take 3 ++ data)] else [])

/-- All the port shifts out while `f` is clocked, before it is cut to the bits clocked: the last frame result, and then
a READ's snapshot or zeros (R187, R188). -/
def Device.shiftedOut (d : Device) (f : Frame) : List Byte :=
  d.mgmt.lastResult.code :: (match d.snapshotFor f with
    | some v => readStream f v
    | none => [])

/-- The first `n` bits of a byte, most significant first (R186). -/
def firstBits (b : Byte) (n : Nat) : List Bool := (List.range n).map fun k => b.getLsbD (7 - k)

/-- Byte `k` of what is shifted out; 0 past its end (R187). -/
def Device.mdoByte (d : Device) (f : Frame) (k : Nat) : Byte := (d.shiftedOut f).getD k 0

/-- The frame is in progress: its state follows the bytes that have arrived, a READ's snapshot is taken when it is due,
and MDO has carried the bits clocked (R187, R189). -/
def Device.frameGoesOn (d : Device) (f : Frame) : Device :=
  { d with mgmt := { d.mgmt with
      frame := framePhase f
      current := some { bytes := f.bytes, snapshot := d.snapshotFor f }
      mdo := (List.range f.bytes.length).map (d.mdoByte f)
      mdoBits := firstBits (d.mdoByte f f.bytes.length) f.extraBits.val } }

/-- The frame ends: its result is stored, the port is IDLE, and MDO has carried the bits clocked (R187). -/
def Device.endFrame (d : Device) (f : Frame) (out : Device) (r : FrameResult) : Device :=
  { d with mgmt := { d.mgmt with
      frame := .idle
      current := none
      lastResult := r
      mdo := (List.range f.bytes.length).map (out.mdoByte f)
      mdoBits := firstBits (out.mdoByte f f.bytes.length) f.extraBits.val } }

/-! ### READ frames -/

/-- The result of a READ frame (R189). -/
def Device.readResult (d : Device) (f : Frame) : FrameResult :=
  match f.words with
  | none => .length
  | some w =>
    if f.tooShort w then .short
    else if f.tooLong w then .length
    else if ((d.snapshotFor f).getD []).any Option.isNone then .badItem
    else .ok

/-! ### WRITE frames: the tests -/

/-- The range of a setting (R195). -/
def settingRange : Nat → Nat × Nat
  | 0 => (0, 1)
  | 1 => (1, 1023)
  | 2 => (1, 65535)
  | 3 => (0, 1)
  | 4 => (0, 6)
  | 5 => (1, 15)
  | _ => (4, 31)

/-- Test 3 of R190 for one item: it is writable, and the value is in its range (R192, R194-R196). -/
def writeGood (n : Nat) (v : Word) : Bool :=
  if 0x020 ≤ n ∧ n ≤ 0x02F then true
  else if n = 0x040 then decide (v = 1)
  else if 0x050 ≤ n ∧ n ≤ 0x056 then
    decide ((settingRange (n - 0x050)).1 ≤ v.toNat) && decide (v.toNat ≤ (settingRange (n - 0x050)).2)
  else if n = 0x060 then decide (v = 1) || decide (v = 2) || decide (v = 3)
  else decide (n = 0x070) || decide (n = 0x071)

/-- The conditions of FORMAT (R124). -/
def Device.formatAllowed (d : Device) : Bool :=
  decide (d.part.state = .running) && !d.journal.formatting && d.quiet

/-- Test 4 of R190 for one item: the rule that owns it refuses the write (R6, R8, R124). -/
def Device.writeRefused (d : Device) (n : Nat) (v : Word) : Bool :=
  if 0x020 ≤ n ∧ n ≤ 0x02F then d.regions.applyWaiting
  else if n = 0x040 then d.regions.applyWaiting || !d.pendingValid
  else if n = 0x060 ∧ v = 1 then !d.formatAllowed
  else false

/-- The result of a WRITE frame (R190). -/
def Device.writeResult (d : Device) (f : Frame) : FrameResult :=
  match f.words with
  | none => .length
  | some w =>
    if f.tooShort w then .short
    else if f.tooLong w then .length
    else if !f.crcGood w then .crcMismatch
    else if !(f.writes w).all fun p => writeGood p.1 p.2 then .badItem
    else if (f.writes w).any fun p => d.writeRefused p.1 p.2 then .refused
    else .ok

/-! ### WRITE frames: the effects -/

/-- A pending table item is stored (R6, R194). -/
def Device.writePending (d : Device) (n : Nat) (v : Word) : Device :=
  let i : Fin 8 := Fin.ofNat 8 ((n - 0x020) / 2)
  let e := d.regions.pendingTable[i]
  let e1 : RegionEntry :=
    if n % 2 = 0 then { e with base := v.extractLsb' 16 16, size := v.extractLsb' 0 16 }
    else { e with mode := v.extractLsb' 0 4, view := v.extractLsb' 8 2 }
  { d with regions := { d.regions with pendingTable := d.regions.pendingTable.set i.val e1 i.isLt } }

/-- A valid APPLY is taken: copied at once, or left waiting (R9). -/
def Device.takeApply (d : Device) : Device :=
  if d.quiet then d.applyCopy else { d with regions := { d.regions with applyWaiting := true } }

/-- A setting is stored (R195). -/
def Settings.write (s : Settings) (n v : Nat) : Settings :=
  match n with
  | 0 => { s with burstOrder := if v = 0 then .sequential else .interleaved }
  | 1 => { s with waitLimit := v }
  | 2 => { s with leaseLength := v }
  | 3 => { s with leaseAction := if v = 0 then .report else .revoke }
  | 4 => { s with anchorDefer := v }
  | 5 => { s with lowWater := v }
  | _ => { s with refreshPeriod := v }

/-- A setting item is stored (R195). -/
def Device.writeSetting (d : Device) (n : Nat) (v : Word) : Device :=
  { d with mgmt := { d.mgmt with settings := d.mgmt.settings.write (n - 0x050) v.toNat } }

/-- FORMAT is taken (R124): the condition is BLANK, the pass, the reclaim and the pending request end, and the FORMAT's
anchor write is issued, or waits for the write in flight. A pass that FORMAT ends does not stop as R117 has it, so the
anchor debt stands, even where the pass had moved the live tail (DEDUCED, log 37). -/
def Device.takeFormat (d : Device) : Device :=
  let d1 := d.withdraw Access.isHeaderRead
  let d2 := { d1 with journal := { d1.journal with
      cond := .blank, pass := none, passAgain := false, reclaim := .idle, reclaimAgain := false
      forcedPending := false, formatting := true } }
  match d.journal.anchor with
  | none => d2.issueAnchor .format
  | some _ => d2

/-- HOLD is taken (R167, R196). -/
def Device.takeHold (d : Device) : Device :=
  Device.holdReact { d with part := { d.part with holdFlag := true } }

/-- RELEASE is taken (R167, R170, R196). -/
def Device.takeRelease (d : Device) (st : Straps) : Device :=
  Device.restartIfFree { d with part := { d.part with holdFlag := false } } st

/-- The causes named are cleared (R197). -/
def Device.clearCauses (d : Device) (v : Word) : Device :=
  { d with mgmt := { d.mgmt with causes := d.mgmt.causes &&& ~~~ v.extractLsb' 0 7 } }

/-- The mask is stored (R198). -/
def Device.writeMask (d : Device) (v : Word) : Device :=
  { d with mgmt := { d.mgmt with mask := v.extractLsb' 0 7 } }

/-- A write of the COMMAND item (R196). -/
def Device.writeCommand (d : Device) (st : Straps) (v : Word) : Device :=
  if v = 1 then d.takeFormat else if v = 2 then d.takeHold else if v = 3 then d.takeRelease st else d

/-- One item of a frame that passed every test is written (R190). -/
def Device.writeItem (d : Device) (st : Straps) (n : Nat) (v : Word) : Device :=
  if 0x020 ≤ n ∧ n ≤ 0x02F then d.writePending n v
  else if n = 0x040 then d.takeApply
  else if 0x050 ≤ n ∧ n ≤ 0x056 then d.writeSetting n v
  else if n = 0x060 then d.writeCommand st v
  else if n = 0x070 then d.clearCauses v
  else if n = 0x071 then d.writeMask v
  else d

/-- The items of a frame are written in ascending item order (R190). -/
def Device.writeItems (d : Device) (st : Straps) (ws : List (Nat × Word)) : Device :=
  ws.foldl (fun d p => d.writeItem st p.1 p.2) d

/-- What a WRITE frame with result `r` does besides storing its result (R190). -/
def Device.writeEffect (d : Device) (f : Frame) (st : Straps) (r : FrameResult) : Device :=
  match r, f.words with
  | .ok, some w => d.writeItems st (f.writes w)
  | .crcMismatch, _ => d.raise .linkCrc
  | _, _ => d

/-! ### Frames -/

/-- A WRITE frame ends (R187, R190). -/
def Device.writeFrame (d : Device) (f : Frame) (st : Straps) : Device :=
  let r := d.writeResult f
  ((d.writeEffect f st r).endFrame f d r).settle

/-- A READ frame ends (R187, R189). -/
def Device.readFrame (d : Device) (f : Frame) : Device := d.endFrame f d (d.readResult f)

/-- A frame that ends before its command byte is complete is SHORT (R188). -/
def Device.brokenFrame (d : Device) (f : Frame) : Device := d.endFrame f d .short

/-- The bits of a frame arrive: while the part is STOPPED they are not looked at (R187, log 8); bytes that do not go on
with those of the frame in progress cannot arrive (log 9); else the frame goes on, or with MSS negated `ends` it. With no
frame in progress they begin one, after STOPPED too, whenever MSS was asserted (DESIGN CHOICE, log 39). -/
def Device.clockFrame (d : Device) (f : Frame) (ends : Device → Device) : Host.Outcome Device Fault Refusal :=
  if d.part.state = .stopped then .next d
  else if d.continues f then .next (if f.ended then ends d else d.frameGoesOn f)
  else .refused .eventCannotOccur

/-- A WRITE frame row's command: the frame must fit the row (log 10, log 26). -/
def Device.frameOfRow (d : Device) (row : FrameRow) (f : Frame) (st : Straps) :
    Host.Outcome Device Fault Refusal :=
  if f.fits row then d.clockFrame f fun x => x.writeFrame f st else .refused .illFormed

end Sys2Proof.Machine
end

