-- ==== Sys2Proof/Machine/HostCycles.lean ====
section
/-! DEFINITION. The commands of the host bus: READ, WRITE, the marks, the wait limit, and the completion of a host
read's access (R15-R36, R43-R48). -/

namespace Sys2Proof.Machine

/-! ### Completions of accesses -/

/-- A line read for `use` completes: `k` goes on with the words, the access no longer in flight (R150, R155). -/
def Device.readDone (d : Device) (use : ReadUse) (k : Device → Nat → List Word → Host.Outcome Device Fault Refusal) :
    Host.Outcome Device Fault Refusal :=
  match d.port.inFlight with
  | some (.read u line) =>
    if u = use then
      if d.inDram line then k d.landed line (d.dram.readLine line) else .fault .accessBeyondCapacity
    else .refused .eventCannotOccur
  | _ => .refused .eventCannotOccur

/-- A masked line write whose use `p` accepts completes: it takes effect, and `k` goes on (R150, R155). -/
def Device.writeDone (d : Device) (p : WriteUse → Bool) (k : Device → Host.Outcome Device Fault Refusal) :
    Host.Outcome Device Fault Refusal :=
  match d.port.inFlight with
  | some (.write u w) =>
    if p u then
      if d.inDram w.line then k { d.landed with dram := d.dram.writeLine w } else .fault .accessBeyondCapacity
    else .refused .eventCannotOccur
  | _ => .refused .eventCannotOccur

/-! ### Taking a cycle -/

/-- A cycle arrives (R19, R20). A port that is not IDLE takes none (R15, log 8). In RUNNING `eval` evaluates it; else it
is answered by the part state, with `zeros` for data. -/
def Device.takeCycle (d : Device) (zeros : List Word) (eval : Device → Device) : Device :=
  if d.host.mode = .idle then
    let d1 := { d with host := { d.host with answer := none } }
    match d.part.state with
    | .running => (eval d1).settle
    | .starting => d1.answer .notReady zeros
    | .holding | .held => d1.answer .held zeros
    | .stopped => d
  else d

/-- HOST_READ (R15-R23, R78). -/
def execHostRead (c : ReadCycle) (s : State) : Host.Outcome State Fault Refusal :=
  s.onDevice (.next (s.dev.takeCycle (List.replicate c.blen.beats 0) fun d =>
    d.evalRead c d.mgmt.settings.burstOrder))

/-- HOST_WRITE (R15-R17, R24-R28). -/
def execHostWrite (c : WriteCycle) (s : State) : Host.Outcome State Fault Refusal :=
  if c.data.length = c.blen.beats then
    s.onDevice (.next (s.dev.takeCycle [] fun d => d.evalWrite c d.mgmt.settings.burstOrder))
  else .refused .illFormed

/-- The word read for a byte address. -/
def wordRead (got : List (Nat × List Word)) (a : Nat) : Word :=
  ((got.lookup (lineOf a)).getD []).getD (wordPos a).val 0

/-- A line read of the host read requester has returned (R23). -/
def Device.hostLineRead (d : Device) (line : Nat) (ws : List Word) : Host.Outcome Device Fault Refusal :=
  match d.host.mode with
  | .reading r =>
    let got := (line, ws) :: r.got
    match r.todo.drop 1 with
    | [] => .next ((d.answer .okay (r.sources.map (wordRead got))).settle)
    | l :: rest =>
      let r1 : Reading := { r with todo := l :: rest, got := got }
      .next (Device.requestHostLine { d with host := { d.host with mode := .reading r1 } } (l :: rest)).settle
  | _ => .refused .eventCannotOccur

/-- HOST_READ_ACCESS_COMPLETE (R23). -/
def execHostReadAccessComplete (s : State) : Host.Outcome State Fault Refusal :=
  s.onDevice (s.dev.readDone .host fun d line ws => d.hostLineRead line ws)

/-! ### Marks -/

/-- A MARK of row `k` arrives: its address names the request and the context that `eval` takes (R33). One whose address
does not name the row's request spells no command of the row (log 10). -/
def State.takeMark (s : State) (k : MarkKind) (m : MarkCycle) (eval : Ctx → Device → Device) :
    Host.Outcome State Fault Refusal :=
  match markRequest m.addr with
  | some (x, c) => if x = k then s.onDevice (.next (s.dev.takeCycle [0] (eval c))) else .refused .illFormed
  | none => .refused .illFormed

/-- OPEN (R33, R43, R44). -/
def execOpenMark (m : MarkCycle) (s : State) : Host.Outcome State Fault Refusal :=
  s.takeMark .openKind m fun c d => d.evalOpen c

/-- COMMIT (R33, R45). -/
def execCommitMark (m : MarkCycle) (s : State) : Host.Outcome State Fault Refusal :=
  s.takeMark .commitKind m fun c d => d.evalCommit c

/-- One evaluation of an ABANDON (R46). -/
def Device.evalAbandon (d : Device) (c : Ctx) : Device :=
  if (d.ctx c).state.live then (d.undo c .abandoned).reply c .accepted else d.reply c .busy

/-- ABANDON (R33, R46). -/
def execAbandonMark (m : MarkCycle) (s : State) : Host.Outcome State Fault Refusal :=
  s.takeMark .abandonKind m fun c d => d.evalAbandon c

/-- One evaluation of a RENEW (R47). -/
def Device.evalRenew (d : Device) (c : Ctx) : Device :=
  if (d.ctx c).state.live then
    (d.modifyCtx c fun x => { x with lease := d.freshLease, leaseExpired := false }).reply c .accepted
  else d.reply c .busy

/-- RENEW (R33, R47). -/
def execRenewMark (m : MarkCycle) (s : State) : Host.Outcome State Fault Refusal :=
  s.takeMark .renewKind m fun c d => d.evalRenew c

/-- QUERY (R33, R48). -/
def execQueryMark (m : MarkCycle) (s : State) : Host.Outcome State Fault Refusal :=
  s.takeMark .queryKind m fun c d => d.reply c .status

/-- MARK_BADTAG: a mark whose kind or context names nothing (R33, R36). -/
def execMarkBadTag (m : MarkCycle) (s : State) : Host.Outcome State Fault Refusal :=
  if markNamesNothing m.addr then
    s.onDevice (.next (s.dev.takeCycle [0] fun d => d.refuse .badTag [0] m.addr (markCtxField m.addr) .mark))
  else .refused .illFormed

/-! ### The wait limit and the leases -/

/-- The wait timer of a waiting cycle expires: PENDING for a COMMIT whose entry is queued, else TIMEOUT (R31, R34). -/
def Device.waitExpired (d : Device) (w : Waiting) : Device :=
  match w.cond with
  | .commitCompletion c => (d.clearWaiter w.cond).reply c .pending
  | .queueSpace | .ownersRelease _ | .journalRoom | .readAfterWrite _ => d.answer .timeout w.cycle.zeros

/-- WAIT_LIMIT_EXPIRY (R31, R34). R31 answers a waiting cycle, and R19 gives READING no event but its last access: an
expiry in READING only stops the timer, and the READ is answered OKAY (DEDUCED, log 35). -/
def execWaitLimitExpiry (s : State) : Host.Outcome State Fault Refusal :=
  let d := s.dev
  match d.host.mode with
  | .waiting w => s.onDevice (.next (d.waitExpired w).settle)
  | .reading r =>
    match r.timer with
    | some _ => s.onDevice (.next { d with host := { d.host with mode := .reading { r with timer := none } } })
    | none => .refused .eventCannotOccur
  | .stopped | .idle => .refused .eventCannotOccur

/-- A lease expires under the action in force (R50-R52). -/
def Device.leaseExpired (d : Device) (c : Ctx) : Device :=
  match d.mgmt.settings.leaseAction with
  | .report =>
    let d1 := d.modifyCtx c fun x => { x with leaseExpired := true, lease := x.lease.stop }
    Device.raise { d1 with mgmt := { d1.mgmt with notedExpired := some c } } .leaseExpired
  | .revoke =>
    let d1 := d.modifyCtx c fun x => { x with leaseExpired := true }
    Device.raise { (d1.undo c .revoked) with mgmt := { d1.mgmt with notedRevoked := some c } } .revoked

/-- LEASE_EXPIRY: of a timer that runs, in OPEN or SPOILED (R49). -/
def execLeaseExpiry (c : Ctx) (s : State) : Host.Outcome State Fault Refusal :=
  if (s.dev.ctx c).lease.running ∧ (s.dev.ctx c).state.live then
    s.onDevice (.next (s.dev.leaseExpired c).settle)
  else .refused .eventCannotOccur

end Sys2Proof.Machine
end

