-- ==== Sys2Proof/Machine/QueueWork.lean ====
section
/-! DEFINITION. The completions of the write engine and of appends (R87-R95, R109, R110, R130, R142). -/

namespace Sys2Proof.Machine

/-! ### The old-line read -/

/-- The old line is read: the images are kept and the BEFORE record's append is requested (R92, R93). -/
def Device.oldLineRead (d : Device) (ws : List Word) : Host.Outcome Device Fault Refusal :=
  match d.engine with
  | .oldRead g =>
    let g1 := { g with images := imagesOf g.union ws }
    .next (Device.requestAppend { d with engine := .beforeRecord g1 } .writeEngine (beforeRecordReq g1)).settle
  | _ => .refused .eventCannotOccur

/-- OLD_LINE_READ_COMPLETE (R92, R93). -/
def execOldLineReadComplete (s : State) : Host.Outcome State Fault Refusal :=
  s.onDevice (s.dev.readDone .oldLine fun d _ ws => d.oldLineRead ws)

/-! ### Record completion: the appender's rule -/

/-- The OPEN record is complete (R88). -/
def Device.openComplete (d : Device) (a : Append) : Device :=
  (d.setNewest a.req.ctx a.pos).headLeaves.engineNext

/-- The BEFORE record is complete: locators, newest record position, and GROUP_DATA (R94, R95). -/
def Device.beforeComplete (d : Device) (a : Append) : Device :=
  match d.engine with
  | .beforeRecord g =>
    let d1 := (d.setLocators g a.pos).setNewest g.ctx a.pos
    Device.requestData { d1 with engine := .groupData { g with remaining := g.members } }
  | _ => d

/-- A waiting COMMIT mark is answered COMMITTED (R34, R130). -/
def Device.answerCommitted (d : Device) (c : Ctx) : Device :=
  if (d.ctx c).commitWaiter then
    (d.modifyCtx c fun x => { x with commitWaiter := false }).reply c .committed
  else d

/-- The COMMIT record is complete (R130). -/
def Device.commitComplete (d : Device) (a : Append) : Device :=
  ((d.finish a.req.ctx .committed).answerCommitted a.req.ctx).headLeaves.engineNext.requestPass

/-- A recovered instance's DONE record raises the report's count (R183). -/
def Report.countDone (r : Report) (o : FinishOutcome) : Report :=
  if o = .recovered then { r with rolledBack := r.rolledBack + 1 } else r

/-- The DONE record is complete (R142). -/
def Device.doneComplete (d : Device) (a : Append) : Device :=
  let outcome := outcomeOfCode a.req.byte1
  let d1 := d.finish a.req.ctx outcome
  let d2 := { d1 with
    rollback := { list := d1.rollback.list.filter fun e => decide (e.ctx ≠ a.req.ctx), state := .idle, walk := none }
    part := { d1.part with report := d1.part.report.countDone outcome } }
  d2.select.requestPass

/-- The appender's rule for a record's kind (R110). -/
def Device.appenderRule (d : Device) (a : Append) : Device :=
  match a.req.kind with
  | .openRec => d.openComplete a
  | .before => d.beforeComplete a
  | .commit => d.commitComplete a
  | .done => d.doneComplete a
  | .pad => d

/-- The wait conditions that a record's completion ends (R29, R76, R85): by its entry leaving, by the release of its
instance, by a rise of free space. -/
def endedByRecord (kind : RecKind) (inst : Word) (roomRose : Bool) (w : WaitCond) : Bool :=
  let leaves := decide (kind = .openRec) || decide (kind = .commit)
  let releases := decide (kind = .commit) || decide (kind = .done)
  (leaves && endedByDeparture (.openEntry 0 inst) w) || (releases && endedByRelease inst w)
    || (roomRose && endedByRoom w)

/-- A record is complete (R110): the journal controller's changes, the append that waits (R107), the appender's rule,
the selection, and what the other blocks see (log 27). -/
def Device.recordComplete (d : Device) (a : Append) : Device :=
  let d1 := d.recordLanded a
  let rose := decide (d.free < d1.free)
  (((d1.beginWaitingAppend).appenderRule a).select).observe (endedByRecord a.req.kind a.req.inst rose)

/-- One of an append's writes is complete (R109). -/
def Device.appendWritten (d : Device) (a : Append) : Device :=
  match a.writes.drop 1 with
  | w :: ws =>
    let a1 : Append := { a with writes := w :: ws }
    Device.requestAppendWrite { d with journal := { d.journal with append := some a1 } } a1
  | [] => match a.padLen with
    | some r => d.padComplete a r
    | none => d.recordComplete a

/-- The write in flight is one of the append in hand. -/
def isAppend (u : WriteUse) : Bool :=
  match u with
  | .append _ => true
  | _ => false

/-- APPEND_WRITE_COMPLETE (R109, R110). -/
def execAppendWriteComplete (s : State) : Host.Outcome State Fault Refusal :=
  s.onDevice (s.dev.writeDone isAppend fun d =>
    match d.journal.append with
    | some a => .next (d.appendWritten a).settle
    | none => .refused .eventCannotOccur)

/-! ### Data writes -/

/-- The engine's next work after the head entry has left on its data write (R87, R95). -/
def Device.afterData (d : Device) : Device :=
  match d.engine with
  | .groupData g =>
    if 1 < g.remaining then Device.requestData { d with engine := .groupData { g with remaining := g.remaining - 1 } }
    else d.engineNext
  | _ => d.engineNext

/-- The data write of the head entry `e` is complete (R85, R87, R95). -/
def Device.dataWritten (d : Device) (e : QEntry) : Device :=
  (d.headLeaves.afterData.select).observe (endedByDeparture e)

/-- DATA_WRITE_COMPLETE (R87, R95). -/
def execDataWriteComplete (s : State) : Host.Outcome State Fault Refusal :=
  s.onDevice (s.dev.writeDone (fun u => decide (u = .data)) fun d =>
    match d.queue with
    | e :: _ => .next (d.dataWritten e).settle
    | [] => .refused .eventCannotOccur)

end Sys2Proof.Machine
end

