-- ==== Sys2Proof/Machine/JournalWork.lean ====
section
/-! DEFINITION. The completions of the rollback engine (R138-R141, R146), of the retirement reader (R116, R127) and of
the anchor writer (R121, R125, R181). -/

namespace Sys2Proof.Machine

/-! ### The walk -/

/-- The words of a record read so far, with those of the ring line that follows them (R138). -/
def gather (pos : Nat) (words line : List Word) : List Word := words ++ line.drop ((pos + words.length) % 8)

/-- The DONE record of a walk (R141). -/
def doneRecordReq (w : Walk) : RecordReq :=
  { kind := .done, ctx := w.ctx, inst := w.inst, byte1 := BitVec.ofNat 8 w.outcome.code, line := 0, images := []
    members := 0 }

/-- The restoring write of a BEFORE record (R139). -/
def restoreWrite (ws : List Word) : LineWrite :=
  { line := (recLine ws).toNat
    words := ((setWords (recByte1 ws)).zip (ws.drop Config.headerLength)).map fun p =>
      { pos := p.1, lanes := 15, data := p.2 } }

/-- The OPEN record is read: CLOSE and the DONE append, or in HOLDING HALTED (R140, R146). -/
def Device.walkEnds (d : Device) (w : Walk) : Device :=
  if d.part.state = .holding then { d with rollback := { d.rollback with state := .halted, walk := some w } }
  else
    Device.requestAppend { d with rollback := { d.rollback with state := .close, walk := some w } } .rollbackEngine
      (doneRecordReq w)

/-- Words of the record in hand are read: more are requested, or the record is restored, or the chain ends (R138-R140).
A header that is neither BEFORE nor OPEN does not arise (R137); it stops the model (log 22). -/
def Device.walkRead (d : Device) (w : Walk) : Host.Outcome Device Fault Refusal :=
  let more : Host.Outcome Device Fault Refusal :=
    .next (Device.requestWalkLine { d with rollback := { d.rollback with walk := some w } } w.pos w.words.length).settle
  if w.words.length < Config.headerLength then more
  else match kindOfCode (recKindByte w.words) with
    | some .openRec => .next (d.walkEnds w).settle
    | some .before =>
      if w.words.length < recLength w.words then more
      else
        let w1 : Walk := { w with words := w.words.take (recLength w.words) }
        .next (Device.request { d with rollback := { d.rollback with state := .restore, walk := some w1 } }
          (.write .restore (restoreWrite w1.words))).settle
    | _ => .fault .ringRecordUnreadable

/-- ROLLBACK_RECORD_READ_COMPLETE (R138). -/
def execRollbackRecordReadComplete (s : State) : Host.Outcome State Fault Refusal :=
  s.onDevice (s.dev.readDone .walk fun d _ ws =>
    match d.rollback.state, d.rollback.walk with
    | .read, some w => d.walkRead { w with words := gather w.pos w.words ws }
    | _, _ => .refused .eventCannotOccur)

/-- A restoring write is complete: the walk goes to the previous link, in READ, or in HOLDING HALTED (R139, R146). -/
def Device.restored (d : Device) (w : Walk) : Device :=
  let w1 : Walk := { w with pos := (recLink w.words).toNat, words := [] }
  if d.part.state = .holding then { d with rollback := { d.rollback with state := .halted, walk := some w1 } }
  else Device.requestWalkLine { d with rollback := { d.rollback with state := .read, walk := some w1 } } w1.pos 0

/-- RESTORE_WRITE_COMPLETE (R139). -/
def execRestoreWriteComplete (s : State) : Host.Outcome State Fault Refusal :=
  s.onDevice (s.dev.writeDone (fun u => decide (u = .restore)) fun d =>
    match d.rollback.state, d.rollback.walk with
    | .restore, some w => .next (d.restored w).settle
    | _, _ => .refused .eventCannotOccur)

/-! ### Header reads -/

/-- A header's words 0 to 3 are read by the running pass `p` (R116): a finished record is retired and the pass goes on,
or in HOLDING stops (R127); at an unfinished one it stops. -/
def Device.headerRead (d : Device) (p : Pass) (t : TailId) : Device :=
  if d.finished t then
    let d1 := d.retire t (headerLengthOf p.words)
    if d.part.state = .holding then d1.passHalt p else (d1.passRun { p with expected := some (t.seq + 1) }).passNext
  else (Device.passStop { d with journal := { d.journal with tailRec := some t } } p).passNext

/-- A header line is read (R116); after a FORMAT ended the pass it is ignored (R124). -/
def Device.headerLine (d : Device) (ws : List Word) : Host.Outcome Device Fault Refusal :=
  match d.journal.pass with
  | none => .next d.settle
  | some p =>
    let p1 : Pass := { p with words := gather d.journal.liveTail p.words ws }
    if p1.words.length < 4 then
      .next (Device.requestHeader { d with journal := { d.journal with pass := some p1 } }
        (d.journal.liveTail + p1.words.length)).settle
    else match headerIdentity p1.words with
      | some t => .next (d.headerRead p1 t).settle
      | none => .fault .ringRecordUnreadable

/-- HEADER_READ_COMPLETE (R116). -/
def execHeaderReadComplete (s : State) : Host.Outcome State Fault Refusal :=
  s.onDevice (s.dev.readDone .header fun d _ ws => d.headerLine ws)

/-! ### Anchor writes -/

/-- The anchor write `w` is complete (R121, R125); a start's closing write ends the start (R181), in HOLDING it only has
its usual effects (R184). -/
def Device.anchorWritten (d : Device) (w : AnchorWrite) : Device :=
  let d1 := if w.why = .format then d.formatLanded
    else if w.why = .closing ∧ d.part.state = .starting then (d.anchorLanded w).enterRunning
    else (d.anchorLanded w).anchorNext w
  d1.observe endedByRoom

/-- The write in flight is an anchor write. -/
def isAnchor (u : WriteUse) : Bool :=
  match u with
  | .anchor _ => true
  | _ => false

/-- ANCHOR_WRITE_COMPLETE (R121, R125, R181). -/
def execAnchorWriteComplete (s : State) : Host.Outcome State Fault Refusal :=
  s.onDevice (s.dev.writeDone isAnchor fun d =>
    match d.journal.anchor with
    | some w => .next (d.anchorWritten w).settle
    | none => .refused .eventCannotOccur)

end Sys2Proof.Machine
end

