-- ==== Sys2Proof/Machine/PortEvents.lean ====
section
/-! DEFINITION. The memory port's own events: the refresh timer, refreshes, self-refresh entry and exit, bring-up
(R156-R162). -/

namespace Sys2Proof.Machine

/-- The owed count at a refresh timer expiry (R157). -/
def Device.refreshDue (d : Device) : Device :=
  if d.port.owed < Config.owedCap then { d with port := { d.port with owed := d.port.owed + 1 } }
  else d.raise .refreshOverrun

/-- REFRESH_TIMER_EXPIRY: the timer starts again from zero with the period in force (R156, R157). -/
def execRefreshTimerExpiry (s : State) : Host.Outcome State Fault Refusal :=
  let d := s.dev
  if d.port.timer.running then
    s.onDevice (.next (Device.refreshDue { d with port := { d.port with timer := d.freshRefresh } }).settle)
  else .refused .eventCannotOccur

/-- A refresh is complete: the owed count falls by 1 and every bank is CLOSED (R151, R157). -/
def Device.refreshed (d : Device) : Device :=
  { d.landed with port := { d.landed.port with owed := d.port.owed - 1, banks := banksClosed } }

/-- REFRESH_COMPLETE (R157); in ENTERING the port then closes its banks (R159). -/
def execRefreshComplete (s : State) : Host.Outcome State Fault Refusal :=
  if s.dev.port.inFlight = some .refresh then s.onDevice (.next s.dev.refreshed.closeBanks.settle)
  else .refused .eventCannotOccur

/-- The port is in SELF_REFRESH and the part in HELD, which it leaves at once without a hold cause (R159, R169,
R170). -/
def Device.selfRefreshEntered (d : Device) (st : Straps) : Device :=
  Device.restartIfFree
    { d with port := { d.port with state := .selfRefresh }, part := { d.part with state := .held } } st

/-- SELF_REFRESH_ENTRY_COMPLETE (R159, R169). -/
def execSelfRefreshEntryComplete (st : Straps) (s : State) : Host.Outcome State Fault Refusal :=
  if s.dev.port.state = .entering ∧ s.dev.port.inFlight = none then
    s.onDevice (.next (s.dev.selfRefreshEntered st))
  else .refused .eventCannotOccur

/-- SELF_REFRESH_EXIT_COMPLETE (R161, R174). -/
def execSelfRefreshExitComplete (s : State) : Host.Outcome State Fault Refusal :=
  if s.dev.port.state = .exiting then s.onDevice (.next s.dev.bringUpReport.settle)
  else .refused .eventCannotOccur

/-- BRING_UP_COMPLETE (R162, R174). -/
def execBringUpComplete (s : State) : Host.Outcome State Fault Refusal :=
  if s.dev.port.state = .bringingUp then s.onDevice (.next s.dev.bringUpReport.settle)
  else .refused .eventCannotOccur

end Sys2Proof.Machine
end

