-- ==== Sys2Proof/Machine/StartUp.lean ====
section
/-! DEFINITION. The recovery scanner's completions (R175, R177) and the lines PFWARN, RST and power (R167, R170, R172,
R173). -/

namespace Sys2Proof.Machine

/-! ### ANCHOR and SCAN -/

/-- The anchor line is read: the condition and the pointers are set, and the start enters SCAN or ends (R122, R175,
R182). In HOLDING the findings are discarded (R184). -/
def Device.anchorRead (d : Device) (ws : List Word) : Device :=
  if d.part.state = .starting ∧ d.part.phase = some .anchor then
    let d1 := d.setCondition ws
    let d2 := { d1 with part := { d1.part with report := { d1.part.report with cond := d1.journal.cond } } }
    if d2.journal.cond = .valid then
      Device.scanOn { d2 with part := { d2.part with phase := some .scan } }
        (Scan.initial d2.journal.liveTail d2.journal.nextSeq)
    else d2.enterRunning
  else d

/-- ANCHOR_READ_COMPLETE (R175). -/
def execAnchorReadComplete (s : State) : Host.Outcome State Fault Refusal :=
  s.onDevice (s.dev.readDone .anchor fun d _ ws => .next (d.anchorRead ws).settle)

/-- A ring line of the scan is read; in HOLDING its contents are discarded (R168, R177). -/
def Device.scanLine (d : Device) (line : Nat) (ws : List Word) : Device :=
  match d.part.state, d.part.scan with
  | .starting, some s => d.scanOn { s with lineInHand := some (line, ws) }
  | _, _ => d

/-- SCAN_LINE_READ_COMPLETE (R177). -/
def execScanLineReadComplete (s : State) : Host.Outcome State Fault Refusal :=
  s.onDevice (s.dev.readDone .scan fun d line ws => .next (d.scanLine line ws).settle)

/-! ### PFWARN -/

/-- PFWARN is asserted (R167). -/
def Device.warn (d : Device) : Device :=
  if d.part.pfwarn then d else Device.holdReact { d with part := { d.part with pfwarn := true } }

/-- PFWARN_ASSERTED (R167, R168). A level that stands already changes nothing (log 31). -/
def execPfwarnAsserted (s : State) : Host.Outcome State Fault Refusal :=
  s.onDevice (.next s.dev.warn.settle)

/-- PFWARN_NEGATED (R167, R170). -/
def execPfwarnNegated (st : Straps) (s : State) : Host.Outcome State Fault Refusal :=
  let d := s.dev
  s.onDevice (.next (Device.restartIfFree { d with part := { d.part with pfwarn := false } } st).settle)

/-! ### RST and power -/

/-- RST_ASSERTED (R172). A level that stands already changes nothing (log 31). -/
def execRstAsserted (s : State) : Host.Outcome State Fault Refusal :=
  let d := s.dev
  if d.part.rst then s.onDevice (.next d)
  else s.onDevice (.next (Device.stopAll { d with part := { d.part with rst := true } }))

/-- The kind of a start from STOPPED (R165). -/
def Device.stoppedStartKind (d : Device) : StartKind := if d.part.broughtUp then .rst else .powerOn

/-- RST is released: a start begins, if power-on has completed (R172, R173). -/
def Device.releaseRst (d : Device) (st : Straps) : Device :=
  let d1 := { d with part := { d.part with rst := false } }
  if d.part.powered then d1.beginStart d1.stoppedStartKind st else d1

/-- RST_RELEASED (R172). A level that stands already changes nothing (log 31). -/
def execRstReleased (st : Straps) (s : State) : Host.Outcome State Fault Refusal :=
  s.onDevice (.next (if s.dev.part.rst then s.dev.releaseRst st else s.dev))

/-- POWER_ON_COMPLETE: once after each coming of power (R173). -/
def execPowerOnComplete (st : Straps) (s : State) : Host.Outcome State Fault Refusal :=
  let d := s.dev
  if d.part.powered then .refused .eventCannotOccur
  else
    let d1 := { d with part := { d.part with powered := true } }
    s.onDevice (.next (if d.part.rst then d1 else d1.beginStart .powerOn st))

/-- POWER_LOSS (R173). The machine stands as when power comes again. -/
def execPowerLoss (s : State) : Host.Outcome State Fault Refusal := s.onDevice (.next s.dev.losePower)

end Sys2Proof.Machine
end

