-- ==== Sys2Proof/Machine/Frames.lean ====
section
/-! DEFINITION. The management frames, one meaning a row (R186-R198). -/

namespace Sys2Proof.Machine

/-- MANAGEMENT_READ_FRAME (R189). -/
def execManagementReadFrame (f : Frame) (s : State) : Host.Outcome State Fault Refusal :=
  if f.fits .read then s.onDevice (s.dev.clockFrame f fun d => d.readFrame f) else .refused .illFormed

/-- PENDING_TABLE_WRITE (R6, R190, R194). -/
def execPendingTableWrite (f : Frame) (s : State) : Host.Outcome State Fault Refusal :=
  s.onDevice (s.dev.frameOfRow .pendingTable f s.dev.part.straps)

/-- ACTIVE_TABLE_WRITE (R7, R190). -/
def execActiveTableWrite (f : Frame) (s : State) : Host.Outcome State Fault Refusal :=
  s.onDevice (s.dev.frameOfRow .activeTable f s.dev.part.straps)

/-- APPLY (R8-R10, R190). -/
def execApplyRequest (f : Frame) (s : State) : Host.Outcome State Fault Refusal :=
  s.onDevice (s.dev.frameOfRow .apply f s.dev.part.straps)

/-- FORMAT (R124, R190, R196). -/
def execFormatCommand (f : Frame) (s : State) : Host.Outcome State Fault Refusal :=
  s.onDevice (s.dev.frameOfRow .format f s.dev.part.straps)

/-- HOLD (R167, R168, R190, R196). -/
def execHoldCommand (f : Frame) (s : State) : Host.Outcome State Fault Refusal :=
  s.onDevice (s.dev.frameOfRow .hold f s.dev.part.straps)

/-- RELEASE (R167, R170, R190, R196). -/
def execReleaseCommand (f : Frame) (st : Straps) (s : State) : Host.Outcome State Fault Refusal :=
  s.onDevice (s.dev.frameOfRow .release f st)

/-- ALERT_CAUSES_CLEAR (R190, R197). -/
def execAlertCausesClear (f : Frame) (s : State) : Host.Outcome State Fault Refusal :=
  s.onDevice (s.dev.frameOfRow .causesClear f s.dev.part.straps)

/-- ALERT_MASK_WRITE (R190, R198). -/
def execAlertMaskWrite (f : Frame) (s : State) : Host.Outcome State Fault Refusal :=
  s.onDevice (s.dev.frameOfRow .maskWrite f s.dev.part.straps)

/-- SETTING_WRITE (R190, R195, R196). -/
def execSettingWrite (f : Frame) (s : State) : Host.Outcome State Fault Refusal :=
  s.onDevice (s.dev.frameOfRow .setting f s.dev.part.straps)

/-- FRAME_ENDS_BEFORE_COMMAND_BYTE (R188). -/
def execFrameEndsBeforeCommandByte (bits : Fin 8) (s : State) : Host.Outcome State Fault Refusal :=
  let f : Frame := { bytes := [], extraBits := bits, ended := true }
  s.onDevice (s.dev.clockFrame f fun d => d.brokenFrame f)

end Sys2Proof.Machine
end

