-- ==== Sys2Proof/Machine/Dispatch.lean ====
section
/-! DEFINITION. The meaning of each command: one arm per constructor. -/

namespace Sys2Proof.Machine

/-- The effect of a command on the block; the queue is left as it is given. -/
def exec (i : Instr) (s : State) : Host.Outcome State Fault Refusal :=
  match i with
  | .hostRead c => Sys2Proof.Machine.execHostRead c s
  | .hostReadAccessComplete => Sys2Proof.Machine.execHostReadAccessComplete s
  | .hostWrite c => Sys2Proof.Machine.execHostWrite c s
  | .openMark m => Sys2Proof.Machine.execOpenMark m s
  | .commitMark m => Sys2Proof.Machine.execCommitMark m s
  | .abandonMark m => Sys2Proof.Machine.execAbandonMark m s
  | .renewMark m => Sys2Proof.Machine.execRenewMark m s
  | .queryMark m => Sys2Proof.Machine.execQueryMark m s
  | .markBadTag m => Sys2Proof.Machine.execMarkBadTag m s
  | .waitLimitExpiry => Sys2Proof.Machine.execWaitLimitExpiry s
  | .leaseExpiry c => Sys2Proof.Machine.execLeaseExpiry c s
  | .oldLineReadComplete => Sys2Proof.Machine.execOldLineReadComplete s
  | .appendWriteComplete => Sys2Proof.Machine.execAppendWriteComplete s
  | .dataWriteComplete => Sys2Proof.Machine.execDataWriteComplete s
  | .rollbackRecordReadComplete => Sys2Proof.Machine.execRollbackRecordReadComplete s
  | .restoreWriteComplete => Sys2Proof.Machine.execRestoreWriteComplete s
  | .headerReadComplete => Sys2Proof.Machine.execHeaderReadComplete s
  | .anchorWriteComplete => Sys2Proof.Machine.execAnchorWriteComplete s
  | .refreshTimerExpiry => Sys2Proof.Machine.execRefreshTimerExpiry s
  | .refreshComplete => Sys2Proof.Machine.execRefreshComplete s
  | .selfRefreshEntryComplete st => Sys2Proof.Machine.execSelfRefreshEntryComplete st s
  | .selfRefreshExitComplete => Sys2Proof.Machine.execSelfRefreshExitComplete s
  | .bringUpComplete => Sys2Proof.Machine.execBringUpComplete s
  | .anchorReadComplete => Sys2Proof.Machine.execAnchorReadComplete s
  | .scanLineReadComplete => Sys2Proof.Machine.execScanLineReadComplete s
  | .pfwarnAsserted => Sys2Proof.Machine.execPfwarnAsserted s
  | .pfwarnNegated st => Sys2Proof.Machine.execPfwarnNegated st s
  | .rstAsserted => Sys2Proof.Machine.execRstAsserted s
  | .rstReleased st => Sys2Proof.Machine.execRstReleased st s
  | .powerOnComplete st => Sys2Proof.Machine.execPowerOnComplete st s
  | .managementReadFrame f => Sys2Proof.Machine.execManagementReadFrame f s
  | .pendingTableWrite f => Sys2Proof.Machine.execPendingTableWrite f s
  | .activeTableWrite f => Sys2Proof.Machine.execActiveTableWrite f s
  | .applyRequest f => Sys2Proof.Machine.execApplyRequest f s
  | .formatCommand f => Sys2Proof.Machine.execFormatCommand f s
  | .holdCommand f => Sys2Proof.Machine.execHoldCommand f s
  | .releaseCommand f st => Sys2Proof.Machine.execReleaseCommand f st s
  | .alertCausesClear f => Sys2Proof.Machine.execAlertCausesClear f s
  | .alertMaskWrite f => Sys2Proof.Machine.execAlertMaskWrite f s
  | .settingWrite f => Sys2Proof.Machine.execSettingWrite f s
  | .powerLoss => Sys2Proof.Machine.execPowerLoss s
  | .frameEndsBeforeCommandByte bits => Sys2Proof.Machine.execFrameEndsBeforeCommandByte bits s

end Sys2Proof.Machine
end

