-- ==== Sys2Proof/Machine/Step.lean ====
section
/-! DEFINITION. One step: the command at the front of the queue, or the passing of time. -/

namespace Sys2Proof.Machine

/-- One step: the command at the front of the queue is executed on the state with the queue's rest; on an empty queue
half a microsecond passes (log 6). -/
def step (s : State) : Host.Outcome State Fault Refusal :=
  match s.pending with
  | [] => .next { s with dev := s.dev.tick }
  | c :: rest => exec c { s with pending := rest }

/-- `s` with the command that the table's word spells at the front of its queue; no word spells one (log 7). -/
def State.withFetchWord (s : State) (nbits w : Nat) : State :=
  match decodeTableWord nbits w with
  | some c => { s with pending := c :: s.pending }
  | none => s

end Sys2Proof.Machine
end

