-- ==== Sys2Proof/Safety.lean ====
section
/-! DEFINITION. What statements say of states: which blocks a command leaves as they stand, and the invariants. -/

namespace Sys2Proof.Machine

/-! ### What is left unchanged -/

/-- The parts of the device (00_scope, Blocks), with the DRAM and the count of free values. -/
inductive Block where
  | host | regions | contexts | own | queue | engine | journal | rollback | port | part | mgmt | dram | drawn
  deriving DecidableEq, Repr

/-- The block stands in `e` as in `d`. For the DRAM: the same bytes are listed, so every byte reads the same. -/
def sameBlock (b : Block) (d e : Device) : Prop :=
  match b with
  | .host => e.host = d.host
  | .regions => e.regions = d.regions
  | .contexts => e.contexts = d.contexts
  | .own => e.own = d.own
  | .queue => e.queue = d.queue
  | .engine => e.engine = d.engine
  | .journal => e.journal = d.journal
  | .rollback => e.rollback = d.rollback
  | .port => e.port = d.port
  | .part => e.part = d.part
  | .mgmt => e.mgmt = d.mgmt
  | .dram => e.dram = d.dram
  | .drawn => e.drawn = d.drawn

/-- Every block but those listed stands in `e` as in `d`. -/
def unchangedBut (changed : List Block) (d e : Device) : Prop := ∀ b, b ∉ changed → sameBlock b d e

/-- The state with another device and the same queue. -/
def State.withDev (s : State) (d : Device) : State := { s with dev := d }

/-- The state with the host bus port's cycle ended (R18, R19). -/
def State.answered (s : State) (code : Rsp) (data : List Word) : State :=
  s.withDev { s.dev with host := { s.dev.host with mode := .idle, answer := some { code := code, data := data } } }

/-- The state with a cycle answered by a refusal, which overwrites the last refusal record (R36). -/
def State.refusedCycle (s : State) (code : Rsp) (data : List Word) (addr : Word) (ctx : BitVec 3) (kind : CycleKind) :
    State :=
  s.withDev { s.dev with host :=
    { mode := .idle, answer := some { code := code, data := data }
      refusal := { addr := addr, code := code, ctx := ctx, kind := kind } } }

/-- A cycle that begins to wait now: its condition, and the timer with the limit in force (R19, R30). -/
def Device.newWait (d : Device) (c : Cycle) (cond : WaitCond) : HostMode :=
  .waiting { cycle := c, cond := cond, timer := { limit := d.mgmt.settings.waitLimit, elapsed := 0 } }

/-- The state with a cycle that was taken now and waits. -/
def State.waitingOn (s : State) (c : Cycle) (cond : WaitCond) : State :=
  s.withDev { s.dev with host := { s.dev.host with mode := s.dev.newWait c cond, answer := none } }

/-- The part is in RUNNING and the port IDLE, so that an arriving cycle is evaluated (R19, R20). -/
def State.evaluates (s : State) : Prop := s.dev.part.state = .running ∧ s.dev.host.mode = .idle

/-- The data that a host cycle's command returns when it is answered with a code other than OKAY (R18); none for a
command that is no host cycle, or spells none. -/
def cycleZeros : Instr → Option (List Word)
  | .hostRead c => some (List.replicate c.blen.beats 0)
  | .hostWrite c => if c.data.length = c.blen.beats then some [] else none
  | .openMark m => if markNames .openKind m.addr then some [0] else none
  | .commitMark m => if markNames .commitKind m.addr then some [0] else none
  | .abandonMark m => if markNames .abandonKind m.addr then some [0] else none
  | .renewMark m => if markNames .renewKind m.addr then some [0] else none
  | .queryMark m => if markNames .queryKind m.addr then some [0] else none
  | .markBadTag m => if markNamesNothing m.addr then some [0] else none
  | _ => none

/-- The frame that a frame row's command carries, if it fits the row. -/
def frameCarried : Instr → Option Frame
  | .managementReadFrame f => if f.fits .read then some f else none
  | .pendingTableWrite f => if f.fits .pendingTable then some f else none
  | .activeTableWrite f => if f.fits .activeTable then some f else none
  | .applyRequest f => if f.fits .apply then some f else none
  | .formatCommand f => if f.fits .format then some f else none
  | .holdCommand f => if f.fits .hold then some f else none
  | .releaseCommand f _ => if f.fits .release then some f else none
  | .alertCausesClear f => if f.fits .causesClear then some f else none
  | .alertMaskWrite f => if f.fits .maskWrite then some f else none
  | .settingWrite f => if f.fits .setting then some f else none
  | _ => none

/-- The WRITE frame that a command ends. -/
def frameWritten : Instr → Option Frame
  | .managementReadFrame _ => none
  | i => (frameCarried i).filter fun f => f.ended

/-- The port takes the frame: the part is not STOPPED, and the frame goes on with the bytes of the one in progress, if
any (R187). -/
def State.takes (s : State) (f : Frame) : Prop := s.dev.part.state ≠ .stopped ∧ s.dev.continues f = true

/-- A WRITE frame of `w` words ends and passes the tests of length and check byte (R190). -/
def frameArrives (f : Frame) (w : Nat) : Prop :=
  f.ended = true ∧ f.words = some w ∧ f.tooShort w = false ∧ f.tooLong w = false ∧ f.crcGood w = true

/-- The accesses requested and in flight (R153). -/
def MemPort.asked (p : MemPort) : List Access := p.waiting ++ p.inFlight.toList

/-- The port's state, owed count and refresh timer stand; only requests, the access in flight and the banks differ. -/
def portKept (d e : Device) : Prop :=
  e.port.state = d.port.state ∧ e.port.owed = d.port.owed ∧ e.port.timer = d.port.timer

/-- The entries of the contexts other than `c` stand. -/
def otherContexts (c : Ctx) (d e : Device) : Prop := ∀ x, x ≠ c → e.ctx x = d.ctx x

/-- In UNDO the closing anchor write is not due: an instance is still listed (R181). -/
def State.notClosing (s : State) : Prop := s.dev.part.state = .starting → s.dev.rollback.list ≠ []

/-- The access `a` is in flight and its line lies in the DRAM. -/
def State.inFlight (s : State) (a : Access) (line : Nat) : Prop :=
  s.dev.port.inFlight = some a ∧ line + 32 ≤ capacity s.dev.part.straps

/-- The bytes of memory outside a line read as before. -/
def sameOutside (line : Nat) (d e : Device) : Prop :=
  ∀ a, (a < line ∨ line + 32 ≤ a) → e.dram.read a = d.dram.read a

/-! ### What the journal controller's rules make of its state -/

/-- The append of a record at ring position `pos` with sequence number `seq`: the header of R104, with the context's
newest record position for link, and the writes of R109. -/
def Device.recordAppend (d : Device) (who : Appender) (req : RecordReq) (pos : Nat) (seq : Word) : Append :=
  let kind : Byte := match req.kind with
    | .openRec => 1
    | .before => 2
    | .commit => 3
    | .done => 4
    | .pad => 5
  let link : Word := match req.kind, (d.ctx req.ctx).newest with
    | .openRec, _ => 0xFFFFFFFF
    | _, some p => BitVec.ofNat 32 p
    | _, none => 0xFFFFFFFF
  let header := recordHeader kind (BitVec.ofNat 8 (req.ctx.val + 1)) req.byte1 (6 + req.images.length) seq req.inst
    req.line link req.images
  { who := who, req := req, padLen := none, pos := pos, seq := seq
    writes := recordWrites d.part.straps pos header req.images }

/-- The append that begins for a request (R106, R108): with `r` words to the ring end, the record at the head, a PAD of
`r` words at the head, or behind a skip the record at 0. -/
def Device.placedAppend (d : Device) (who : Appender) (req : RecordReq) : Append :=
  let j := d.journal
  let r := d.ring - j.head
  if 6 + req.images.length ≤ r then d.recordAppend who req j.head j.nextSeq
  else if 6 ≤ r then
    { who := who, req := req, padLen := some r, pos := j.head, seq := j.nextSeq
      writes := recordWrites d.part.straps j.head (recordHeader 5 0 0 r j.nextSeq 0 0 0xFFFFFFFF []) [] }
  else d.recordAppend who req 0 j.nextSeq

/-- The journal controller when that append has begun: a skip moves the head to 0 and sets the end gap, and takes the
live tail along where it equals the head (R108). -/
def Device.placedJournal (d : Device) (who : Appender) (req : RecordReq) : Journal :=
  let j := d.journal
  let r := d.ring - j.head
  if 6 ≤ r then { j with append := some (d.placedAppend who req) }
  else { j with
    append := some (d.placedAppend who req), head := 0, endGap := r
    liveTail := if j.liveTail = j.head then 0 else j.liveTail }

/-- The journal controller when an appender has asked for a record: its append begins, or waits behind the one in hand
(R107). -/
def Device.appendAsked (d : Device) (who : Appender) (req : RecordReq) : Journal :=
  match d.journal.append with
  | none => d.placedJournal who req
  | some _ => { d.journal with appendWaiting := some (who, req) }

/-- The record of a queued OPEN or COMMIT (R88, R129). -/
def queuedRecord (kind : RecKind) (c : Ctx) (inst : Word) : RecordReq :=
  { kind := kind, ctx := c, inst := inst, byte1 := 0, line := 0, images := [], members := 0 }

/-- The journal controller when the write engine has taken up the queue `q`: an OPEN or COMMIT at the head asks for its
record (R88, R129). -/
def Device.takenUp (d : Device) (q : List QEntry) : Journal :=
  match q with
  | .openEntry c i :: _ => d.appendAsked .writeEngine (queuedRecord .openRec c i)
  | .commitEntry c i :: _ => d.appendAsked .writeEngine (queuedRecord .commit c i)
  | _ => d.journal

/-- The first write of an append is requested (R109). -/
def firstAsked (a : Append) (e : Device) : Prop :=
  ∃ w rest, a.writes = w :: rest ∧ .write (.append a.who) w ∈ e.port.asked

/-- The causes after the journal controller has gone from `j` to `k`: JOURNAL_LOW is raised where free space fell from at
or above the low-water threshold to below it, with the condition VALID (R126). -/
def Device.lowCauses (d : Device) (j k : Journal) (causes : BitVec 7) : BitVec 7 :=
  let free := fun (x : Journal) => Device.free { d with journal := x }
  let low : Nat := d.mgmt.settings.lowWater * d.ring / 16
  if j.cond = .valid ∧ (low : Int) ≤ free j ∧ free k < low then causes ||| 4#7 else causes

/-- A record is finished: it is a PAD, its context is FREE, or its context holds another instance (R113). -/
def recordFinished (d : Device) (t : TailId) : Prop :=
  t.kind = .pad ∨ ∃ c, t.ctx = some c ∧ ((d.ctx c).state = .free ∨ (d.ctx c).inst ≠ t.inst)

/-- Reclaim is possible (R113): with the condition VALID, an anchor write would move the anchored tail, or a retirement
pass the live tail. -/
def reclaimRule (d : Device) : Prop :=
  let j := d.journal
  j.cond = .valid ∧ (j.liveTail ≠ j.anchoredTail
    ∨ (j.liveTail ≠ j.head ∧ ∃ t, j.tailRec = some t ∧ recordFinished d t))

/-- The byte is the code of the record kind (R103). -/
def kindCoded (k : RecKind) (b : Byte) : Prop :=
  match k with
  | .openRec => b = 1
  | .before => b = 2
  | .commit => b = 3
  | .done => b = 4
  | .pad => b = 5

/-- The words of a header name the record `t` (R104): its kind in byte 3 of word 0, its context in byte 2, none for a PAD,
its sequence number in word 2, its instance in word 3. -/
def headerNames (ws : List Word) (t : TailId) : Prop :=
  kindCoded t.kind ((ws.getD 0 0).extractLsb' 24 8)
    ∧ (t.kind = .pad → t.ctx = none)
    ∧ (t.kind ≠ .pad → ∃ c : Ctx, t.ctx = some c ∧ ((ws.getD 0 0).extractLsb' 16 8).toNat = c.val + 1)
    ∧ t.seq = ws.getD 2 0 ∧ t.inst = ws.getD 3 0

/-- The journal controller when the running pass of `j`, begun at `start`, stops with the live tail at `tail` and the tail
record `t`: the debt rises if the tail moved (R117); a forced reclaim's pass asks for a forced anchor write, issued or
pending (R114, R120); else a debt above the setting has an unforced one issued, in RUNNING (R119). -/
def Device.stoppedPass (d : Device) (j : Journal) (start tail : Nat) (t : Option TailId) : Journal :=
  let rises : Prop := start ≠ tail ∧ j.debt < 255
  let debt := if rises then j.debt + 1 else j.debt
  let j1 := { j with pass := none, liveTail := tail, tailRec := t, debt := debt }
  if j.reclaim = .inPass then
    match j.anchor with
    | none => { j1 with reclaim := .awaitingAnchor, anchor := some { tail := tail, why := .forced } }
    | some _ => { j1 with reclaim := .awaitingAnchor, forcedPending := true }
  else if rises ∧ d.mgmt.settings.anchorDefer < debt ∧ j.anchor = none ∧ d.part.state = .running then
    { j1 with anchor := some { tail := tail, why := .unforced } }
  else j1

/-- The journal controller when a pass begun at `start` goes on at the live tail of `j` (R116, steps 1 to 3): it stops at
the head, goes to 0 from where no header fits, or reads the header. `expected` is the sequence number expected there, if
the pass has passed a record (R118, log 38). -/
def Device.begunPass (d : Device) (j : Journal) (start : Nat) (expected : Option Word) : Journal :=
  let reads := fun (tail : Nat) => { j with
    liveTail := tail, pass := some { start := start, words := [], expected := expected } }
  if j.liveTail = j.head then d.stoppedPass j start j.liveTail none
  else if 6 ≤ d.ring - j.liveTail then reads j.liveTail
  else if j.head = 0 then d.stoppedPass j start 0 none
  else reads 0

/-- The journal controller when the finish of an instance has requested a pass (R115, R123, R127). -/
def Device.passRequested (d : Device) (j : Journal) : Journal :=
  if (d.part.state = .running ∨ d.part.state = .starting) ∧ j.cond = .valid then
    match j.pass with
    | none => d.begunPass j j.liveTail none
    | some _ => { j with passAgain := true }
  else j

/-- The journal controller when a forced reclaim has been requested (R114, R115). -/
def Device.reclaimRequested (d : Device) (j : Journal) : Journal :=
  match j.reclaim, j.pass with
  | .inPass, _ => j
  | .awaitingAnchor, _ => { j with reclaimAgain := true }
  | .idle, none => d.begunPass { j with reclaim := .inPass } j.liveTail none
  | .idle, some _ => { j with reclaim := .inPass, passAgain := true }

/-- The journal controller with the closing anchor write of a start, where it is due (R181). -/
def Device.closed (d : Device) (j : Journal) : Journal :=
  if d.part.state = .starting ∧ d.part.phase = some .undo ∧ d.rollback.list = [] ∧ j.pass = none ∧ j.passAgain = false
      ∧ j.anchor = none then { j with anchor := some { tail := j.liveTail, why := .closing } }
  else j

/-- The masked line write of an anchor line (R118). -/
def Device.anchorLine (d : Device) (tail : Nat) (seq inst : Word) : LineWrite :=
  { line := journalBase d.part.straps
    words := (List.finRange 8).map fun i =>
      { pos := i, lanes := 15, data := (anchorWords d.ring tail seq inst).getD i.val 0 } }

/-- A pass that has begun since `j` has its header read requested (R116). -/
def headerAsked (j : Journal) (e : Device) : Prop :=
  j.pass = none → e.journal.pass ≠ none → .read .header (ringLine e.part.straps e.journal.liveTail) ∈ e.port.asked

/-- An anchor write issued since `j` is requested at its rank, with the values of R118. The sequence number expected at the
live tail is, behind a record that the running pass has passed, the one that follows it (log 38); else the tail record's, if
it is present; else the next sequence number. -/
def anchorAsked (j : Journal) (e : Device) : Prop :=
  let seq := match e.journal.pass.bind (·.expected), e.journal.tailRec with
    | some q, _ => q
    | none, some t => t.seq
    | none, none => e.journal.nextSeq
  j.anchor = none → ∀ a, e.journal.anchor = some a →
    .write (.anchor (decide (a.why ≠ .unforced))) (e.anchorLine a.tail seq e.journal.nextInst) ∈ e.port.asked

/-! ### What the write engine and the rollback engine take up -/

/-- `g` is the group that the queue `q` forms (R90). Its members are LOGGED entries of one instance and one line, from the
head on; the needed words of each lie above those of the members before it; the entry behind the last does not qualify;
the union is that of the members' needed words. -/
def gatheredFrom (q : List QEntry) (g : Group) : Prop :=
  ∃ (ms : List (LineWrite × Ctx × WordSet)) (rest : List QEntry),
    q = ms.map (fun m => .logged m.1 m.2.1 g.inst m.2.2) ++ rest
    ∧ ms.head?.map (·.2.1) = some g.ctx ∧ (∀ m ∈ ms, m.1.line = g.line)
    ∧ ms.Pairwise (fun a b => ∀ i j : Fin 8, a.2.2.getLsbD i.val = true → b.2.2.getLsbD j.val = true → i < j)
    ∧ (∀ i : Fin 8, g.union.getLsbD i.val = true ↔ ∃ m ∈ ms, m.2.2.getLsbD i.val = true)
    ∧ g.members = ms.length ∧ g.remaining = ms.length ∧ g.images = []
    ∧ ∀ w c needed more, rest = .logged w c g.inst needed :: more → w.line = g.line →
        ∃ i j : Fin 8, g.union.getLsbD i.val = true ∧ needed.getLsbD j.val = true ∧ j ≤ i

/-- In `e` the write engine has taken up the queue `q`, with `d` the block whose journal controller it found (R86). With
nothing queued it is IDLE; for a PLAIN or COVERED head it requests the data write (R87); for an OPEN or COMMIT it asks
for the record (R88, R129); for a LOGGED head it requests the old-line read and gathers (R90). -/
def engineTook (q : List QEntry) (d e : Device) : Prop :=
  match q with
  | [] => e.engine = .idle
  | .plain w :: _ | .covered w _ _ :: _ => e.engine = .data ∧ .write .data w ∈ e.port.asked
  | .openEntry c i :: _ => e.engine = .openRecord
      ∧ (d.journal.append = none → firstAsked (d.placedAppend .writeEngine (queuedRecord .openRec c i)) e)
  | .commitEntry c i :: _ => e.engine = .committing
      ∧ (d.journal.append = none → firstAsked (d.placedAppend .writeEngine (queuedRecord .commit c i)) e)
  | .logged w _ _ _ :: _ => .read .oldLine w.line ∈ e.port.asked ∧ ∃ g, e.engine = .gather g ∧ gatheredFrom q g

/-- The rollback engine stands in `e` as `r` stood, but for the selection (R135): when IDLE in RUNNING and STARTING it has
selected the first entry of the list whose context has no queued entry, passing over those that have some, and requested
the first line of its newest record (R137). `d` says the part state. -/
def walkChosen (r : Rollback) (d e : Device) : Prop :=
  let queued := fun (x : ListEntry) => (e.ctx x.ctx).queued
  let selects := r.state = .idle ∧ (d.part.state = .running ∨ d.part.state = .starting)
  (¬ selects → e.rollback = r) ∧ ((∀ x ∈ r.list, queued x ≠ 0) → e.rollback = r)
    ∧ ∀ before x after p, selects → r.list = before ++ x :: after → (∀ y ∈ before, queued y ≠ 0) → queued x = 0 →
        (e.ctx x.ctx).newest = some p →
        e.rollback = { r with
          state := .read
          walk := some { ctx := x.ctx, inst := x.inst, outcome := x.outcome, pos := p, words := [] } }
        ∧ .read .walk (ringLine e.part.straps p) ∈ e.port.asked

/-! ### The scan (R177, R178) -/

/-- The tests 2 to 10 on the words `ws` of a record of kind `k`, in order, with the reason for which each stops the
scan (R177). -/
def scanTests (st : Straps) (s : Scan) (k : RecKind) (ws : List Word) : List (StopReason × Prop) :=
  let ring := ringLength st
  let len := recLength ws
  let byte1 := recByte1 ws
  let line := (recLine ws).toNat
  let ofCtx := fun (c : Ctx) => (recCtxByte ws).toNat = c.val + 1
  let ofOpen := fun (o : OpenInst) => (∃ c, ofCtx c ∧ s.openInst[c] = some o) ∧ o.inst = recInst ws
  let closes := (k = .commit ∨ k = .done) ∧ ∃ o, ofOpen o
  let within := fun (unfinished : Nat) => s.length + (if k = .pad then 0 else len) + 6 * unfinished ≤ ring - 14
  [(.length, match k with
      | .openRec | .commit | .done => len = 6 ∧ s.pos + 6 ≤ ring
      | .before => 7 ≤ len ∧ len ≤ 14 ∧ ((List.range 8).filter byte1.getLsbD).length = len - 6 ∧ s.pos + len ≤ ring
      | .pad => len = ring - s.pos),
   (.check, (ws.getD 0 0).extractLsb' 0 8 = crc8 ((wordBytes (ws.getD 0 0)).take 3 ++ (ws.drop 1).flatMap wordBytes)),
   (.sequence, recSeq ws = s.expected),
   (.field, (k = .pad → recCtxByte ws = 0 ∧ byte1 = 0 ∧ recInst ws = 0 ∧ line = 0 ∧ recLink ws = 0xFFFFFFFF)
      ∧ (k ≠ .pad → recInst ws ≠ 0) ∧ (k = .openRec ∨ k = .commit → byte1 = 0)
      ∧ (k = .done → 2 ≤ byte1.toNat ∧ byte1.toNat ≤ 4) ∧ (k = .openRec ∨ k = .commit ∨ k = .done → line = 0)
      ∧ (k = .openRec → recLink ws = 0xFFFFFFFF)),
   (.address, k = .before → line % 32 = 0 ∧ line < capacity st ∧ line < journalBase st),
   (.context, k ≠ .pad → ∃ c, ofCtx c ∧ (k = .openRec → s.openInst[c] = none)),
   (.closed, k ≠ .pad → ∀ c n, ofCtx c → s.closed[c] = some n → n.inst ≠ recInst ws),
   (.link, k = .before ∨ k = .commit ∨ k = .done → ∀ o, ofOpen o → (recLink ws).toNat = o.lastSeen),
   (.limit, (k = .openRec → within (s.order.length + 1)) ∧ (closes → within (s.order.length - 1))
      ∧ (k ≠ .openRec → ¬ closes → within s.order.length))]

/-- The scanner `s` has read fewer words of the record at its position than the `n` that its next test needs (R177, log
20): word 0 for the kind, word 1 for the length, and behind that test the rest of the record, of a PAD its header. -/
def scanNeeds (st : Straps) (s : Scan) (n : Nat) : Prop :=
  6 ≤ ringLength st - s.pos ∧ s.words.length < n
    ∧ (n = 1 ∨ ∃ k, kindCoded k (recKindByte s.words) ∧ ((n = 2 ∧ 1 ≤ s.words.length)
        ∨ (2 ≤ s.words.length ∧ n = (if k = .pad then 6 else recLength s.words)
            ∧ ∀ test, (.length, test) ∈ scanTests st s k s.words → test)))

/-- `t` is the scanner when it has taken the record of words `ws` and kind `k` (R178). -/
def scanTakes (st : Straps) (s : Scan) (k : RecKind) (ws : List Word) (t : Scan) : Prop :=
  let ring := ringLength st
  let len := recLength ws
  let inst := recInst ws
  let ofCtx := fun (c : Ctx) => (recCtxByte ws).toNat = c.val + 1
  let note : ClosedNote :=
    { inst := inst
      outcome := if k = .commit then .committed else if recByte1 ws = 2 then .abandoned
        else if recByte1 ws = 3 then .revoked else .recovered }
  t.expected = s.expected + 1 ∧ t.taken = s.taken + 1 ∧ t.words = [] ∧ t.lineInHand = s.lineInHand
    ∧ t.length = s.length + (if k = .pad then 0 else len) ∧ t.gap = (if k = .pad then len else s.gap)
    ∧ t.pos = (if k = .pad ∨ ring ≤ s.pos + len then 0 else s.pos + len)
    ∧ t.highest = (match s.highest with
        | none => some inst
        | some h => if 1 ≤ (inst - h).toNat ∧ (inst - h).toNat < 2 ^ 31 then some inst else some h)
    ∧ (∀ x, s.first = some x → t.first = some x)
    ∧ (s.first = none → k = .pad → t.first = some { kind := .pad, ctx := none, inst := inst, seq := recSeq ws })
    ∧ (∀ c, s.first = none → k ≠ .pad → ofCtx c →
        t.first = some { kind := k, ctx := some c, inst := inst, seq := recSeq ws })
    ∧ (k = .pad → t.openInst = s.openInst ∧ t.closed = s.closed ∧ t.order = s.order)
    ∧ ∀ c, ofCtx c → k ≠ .pad →
        let followed := ∃ o, s.openInst[c] = some o ∧ o.inst = inst
        let others := ∀ x, x ≠ c → t.openInst[x] = s.openInst[x] ∧ t.closed[x] = s.closed[x]
        others
        ∧ (k = .openRec → t.openInst[c] = some { inst := inst, lastSeen := s.pos } ∧ t.closed[c] = s.closed[c]
            ∧ t.order = s.order ++ [c])
        ∧ (k = .before → t.closed[c] = s.closed[c] ∧ t.order = s.order
            ∧ (followed → t.openInst[c] = some { inst := inst, lastSeen := s.pos })
            ∧ (¬ followed → t.openInst[c] = s.openInst[c]))
        ∧ (k = .commit ∨ k = .done → t.closed[c] = some note
            ∧ (followed → t.openInst[c] = none ∧ t.order = s.order.filter fun x => decide (x ≠ c))
            ∧ (¬ followed → t.openInst[c] = s.openInst[c] ∧ t.order = s.order))

/-! ### The check byte (R105) -/

/-- The product of two polynomials over GF(2), of which bit `k` is the coefficient of x^k: `q`, and the generator
x^8 + x^5 + x^4 + 1. -/
def timesGenerator (q : Byte) : BitVec 16 :=
  (List.range 8).foldl (fun acc k => if q.getLsbD k then acc ^^^ (0b100110001#16 <<< k) else acc) 0

/-! ### The item space (R192-R199) -/

/-- A word with the values given placed from the bits given up; every other bit 0. -/
def itemWord : List (Nat × Nat) → Word
  | [] => 0
  | f :: fs => BitVec.ofNat 32 f.2 <<< f.1 ||| itemWord fs

/-- Item `n` is one that is written, and `v` is a value that it takes (R192, R194-R198). -/
def itemTakes (n v : Nat) : Prop :=
  (0x020 ≤ n ∧ n ≤ 0x02F) ∨ (n = 0x040 ∧ v = 1) ∨ (n = 0x050 ∧ v ≤ 1) ∨ (n = 0x051 ∧ 1 ≤ v ∧ v ≤ 1023)
    ∨ (n = 0x052 ∧ 1 ≤ v ∧ v ≤ 65535) ∨ (n = 0x053 ∧ v ≤ 1) ∨ (n = 0x054 ∧ v ≤ 6) ∨ (n = 0x055 ∧ 1 ≤ v ∧ v ≤ 15)
    ∨ (n = 0x056 ∧ 4 ≤ v ∧ v ≤ 31) ∨ (n = 0x060 ∧ 1 ≤ v ∧ v ≤ 3) ∨ n = 0x070 ∨ n = 0x071

/-- The layout of a frame (R186): the command byte's direction, CRC flag and length code, the item number, the length that
a frame of `w` words declares, the check byte behind it, and the data words. -/
def frameLayout (f : Frame) : Prop :=
  let b := fun (n : Nat) => f.bytes.getD n 0
  let code := (b 0).extractLsb' 4 2
  let length := f.bytes.length
  f.isWrite = (b 0).getLsbD 7 ∧ f.item = 256 * (b 1).toNat + (b 2).toNat
    ∧ (code = 0 → f.words = some 1) ∧ (code = 1 → f.words = some 2) ∧ (code = 2 → f.words = some 4)
    ∧ (code = 3 → f.words = none)
    ∧ ∀ w, let declared := 3 + 4 * w + (if (b 0).getLsbD 6 = true then 1 else 0)
      (f.tooShort w = true ↔ length < declared)
      ∧ (f.tooLong w = true ↔ declared < length ∨ (length = declared ∧ 0 < f.extraBits.val))
      ∧ (f.crcGood w = true ↔ (b 0).getLsbD 6 = false ∨ b (3 + 4 * w) = crc8 (f.bytes.take (3 + 4 * w)))
      ∧ ∀ k, k < w → 3 + 4 * w ≤ length →
          f.word k = b (3 + 4 * k) ++ b (4 + 4 * k) ++ b (5 + 4 * k) ++ b (6 + 4 * k)

/-- The row of a frame that has its item and its first word: READ, or by the item and the COMMAND item's value; every other
WRITE is a SETTING_WRITE (R192, R196, log 26). -/
def frameRows (f : Frame) : Prop :=
  (1 ≤ f.bytes.length → f.isWrite = false → f.row = .read)
    ∧ (7 ≤ f.bytes.length → f.isWrite = true → f.words ≠ none →
        let n := f.item
        (f.row = .pendingTable ↔ 0x020 ≤ n ∧ n ≤ 0x02F) ∧ (f.row = .activeTable ↔ 0x030 ≤ n ∧ n ≤ 0x03F)
        ∧ (f.row = .apply ↔ n = 0x040) ∧ (f.row = .format ↔ n = 0x060 ∧ f.word 0 = 1)
        ∧ (f.row = .hold ↔ n = 0x060 ∧ f.word 0 = 2) ∧ (f.row = .release ↔ n = 0x060 ∧ f.word 0 = 3)
        ∧ (f.row = .causesClear ↔ n = 0x070) ∧ (f.row = .maskWrite ↔ n = 0x071)
        ∧ f.row ≠ .read ∧ f.row ≠ .none)

/-- The numbers that name an item (R192). -/
def namesItem (n : Nat) : Prop :=
  n ≤ 0x009 ∨ (0x010 ≤ n ∧ n ≤ 0x01B) ∨ (0x020 ≤ n ∧ n ≤ 0x040) ∨ (0x050 ≤ n ∧ n ≤ 0x056) ∨ n = 0x060
    ∨ (0x070 ≤ n ∧ n ≤ 0x072) ∨ n = 0x080 ∨ n = 0x081 ∨ (0x090 ≤ n ∧ n ≤ 0x092) ∨ n = 0x0A0 ∨ n = 0x0A1

/-- The read values of the items (R193-R199). -/
def itemValues (d : Device) : Prop :=
  let reads := fun (n : Nat) (fs : List (Nat × Nat)) => d.readItem n = some (itemWord fs)
  let flag := fun (b : Bool) => if b then 1 else 0
  let j := d.journal
  let r := d.part.report
  let used := (j.head + d.ring - j.anchoredTail) % d.ring
  let entry := fun (n : Nat) (e : RegionEntry) =>
    reads n [(16, e.base.toNat), (0, e.size.toNat)] ∧ reads (n + 1) [(0, e.mode.toNat), (8, e.view.toNat)]
  let noted := fun (c : Option Ctx) => match c with
    | none => 0
    | some c => c.val + 1
  reads 0x000 [(28, d.part.state.code), (24, phaseCode d.part.phase), (22, d.part.kind.code), (20, j.cond.code),
      (17, flag d.part.pfwarn), (16, flag d.part.holdFlag), (8, flag j.formatting), (0, flag d.regions.applyWaiting)]
    ∧ reads 0x001 [(0, j.head)] ∧ reads 0x002 [(0, j.liveTail)] ∧ reads 0x003 [(0, j.anchoredTail)]
    ∧ reads 0x004 [(0, used)] ∧ reads 0x005 [(0, j.reserved)]
    ∧ d.readItem 0x006 = some (BitVec.ofInt 32 ((d.ring : Int) - used - j.reserved - 14))
    ∧ d.readItem 0x007 = some j.nextSeq ∧ d.readItem 0x008 = some j.nextInst
    ∧ reads 0x009 [(16, j.endGap), (0, j.debt)]
    ∧ (∀ c : Ctx, d.readItem (0x010 + 2 * c.val) = some (replyWord .status (d.ctx c))
        ∧ reads (0x011 + 2 * c.val) [(30, spoilCode (d.ctx c).spoil), (24, (d.ctx c).queued),
            (20, flag (d.ctx c).commitWaiter), (16, flag (d.ctx c).newest.isSome),
            (8, match d.rollback.list.findIdx? fun e => decide (e.ctx = c) with
                | none => 0
                | some i => i + 1)]
        ∧ d.readItem (0x018 + c.val) = some (d.ctx c).inst)
    ∧ (∀ i : Fin 8, entry (0x020 + 2 * i.val) d.regions.pendingTable[i]
        ∧ entry (0x030 + 2 * i.val) d.regions.active[i])
    ∧ reads 0x040 [(0, flag d.regions.applyWaiting)]
    ∧ reads 0x050 [(0, if d.mgmt.settings.burstOrder = .interleaved then 1 else 0)]
    ∧ reads 0x051 [(0, d.mgmt.settings.waitLimit)] ∧ reads 0x052 [(0, d.mgmt.settings.leaseLength)]
    ∧ reads 0x053 [(0, if d.mgmt.settings.leaseAction = .revoke then 1 else 0)]
    ∧ reads 0x054 [(0, d.mgmt.settings.anchorDefer)] ∧ reads 0x055 [(0, d.mgmt.settings.lowWater)]
    ∧ reads 0x056 [(0, d.mgmt.settings.refreshPeriod)]
    ∧ reads 0x060 [(8, flag j.formatting), (16, flag d.part.holdFlag)]
    ∧ reads 0x070 [(0, d.mgmt.causes.toNat)] ∧ reads 0x071 [(0, d.mgmt.mask.toNat)]
    ∧ reads 0x072 [(0, noted d.mgmt.notedExpired), (8, noted d.mgmt.notedRevoked)]
    ∧ d.readItem 0x080 = some d.host.refusal.addr
    ∧ reads 0x081 [(28, d.host.refusal.code.code), (24, d.host.refusal.ctx.toNat), (0, d.host.refusal.kind.code)]
    ∧ reads 0x090 [(30, r.kind.code), (28, r.cond.code), (24, r.reason.code), (16, flag r.complete), (8, r.found),
        (0, r.rolledBack)]
    ∧ reads 0x091 [(0, r.stopPos)] ∧ reads 0x092 [(0, r.scanned)]
    ∧ reads 0x0A0 [(0, d.part.straps.msel.toNat), (8, d.part.straps.jsel.toNat)] ∧ reads 0x0A1 [(0, d.ring)]
    ∧ ∀ n, d.readItem n = none ↔ ¬ namesItem n

/-- The codes of the status fields and the frame results (R18, R35, R188, R193, R199). -/
def statusCodes : Prop :=
  [PartState.starting, .running, .holding, .held].map PartState.code = [1, 2, 3, 4]
    ∧ [FrameResult.ok, .crcMismatch, .short, .length, .badItem, .refused].map FrameResult.code = [0, 1, 2, 3, 4, 5]
    ∧ [none, some StartPhase.bringUp, some .anchor, some .scan, some .undo].map phaseCode = [0, 1, 2, 3, 4]
    ∧ [StartKind.powerOn, .rst, .restart].map StartKind.code = [0, 1, 2]
    ∧ [JournalCondition.blank, .valid, .damaged].map JournalCondition.code = [0, 1, 2]
    ∧ [none, some SpoilCause.ownershipFull, some .journalFull].map spoilCode = [0, 1, 2]
    ∧ [Rsp.okay, .outside, .protectedArea, .readonly, .conflict, .untagged, .badTag, .state, .noRoom, .timeout, .notReady,
        .held].map Rsp.code = List.range 12
    ∧ [CycleKind.read, .write, .mark].map CycleKind.code = [0, 1, 2]
    ∧ [StopReason.none, .kind, .length, .check, .sequence, .field, .address, .context, .closed, .link, .limit].map
        StopReason.code = List.range 11

/-- The layout of the reply word (R35). -/
def replyLayout : Prop :=
  [ReplyResult.opened, .committed, .pending, .accepted, .refused, .busy, .noRoom, .unavailable, .deferred, .status].map
      ReplyResult.code = (List.range 10).map (· + 1)
    ∧ [CtxState.free, .opened, .spoiled, .closing, .undoing].map CtxState.code = [0, 1, 2, 3, 4]
    ∧ [FinishOutcome.none, .committed, .abandoned, .revoked, .recovered].map FinishOutcome.code = [0, 1, 2, 3, 4]
    ∧ ∀ (r : ReplyResult) (x : ContextEntry),
        let w := replyWord r x
        w.extractLsb' 28 4 = BitVec.ofNat 4 r.code ∧ w.extractLsb' 25 3 = BitVec.ofNat 3 x.state.code
          ∧ w.getLsbD 24 = x.leaseExpired
          ∧ (x.state ≠ .free → w.extractLsb' 16 8 = BitVec.ofNat 8 x.owned)
          ∧ (x.state = .free → w.extractLsb' 16 8 = BitVec.ofNat 8 x.outcome.code)
          ∧ w.extractLsb' 0 16 = x.inst.extractLsb' 0 16

/-! ### What the entry to HOLDING and RST make of the blocks -/

/-- The commit completion that the cycle in hand waits for (R34). -/
def Device.awaitedCommit (d : Device) : Option Ctx :=
  match d.host.mode with
  | .waiting { cond := .commitCompletion c, .. } => some c
  | _ => none

/-- A context when the leases stop and the cycle in hand ends (R34, R63). -/
def Device.stoppedContext (d : Device) (c : Ctx) : ContextEntry :=
  let x := d.ctx c
  { x with
    lease := { x.lease with running := false }
    commitWaiter := if d.awaitedCommit = some c then false else x.commitWaiter }

/-- The host bus port when HOLDING is entered: a waiting cycle is answered HELD, a READ in READING goes on without its
wait timer (R32, R34). -/
def Device.heldHost (d : Device) : HostPort :=
  match d.host.mode with
  | .waiting w => { d.host with mode := .idle, answer := some { code := .held, data := w.cycle.zeros } }
  | .reading r => { d.host with mode := .reading { r with timer := none } }
  | .idle | .stopped => d.host

/-- A walk halts at the entry to HOLDING: no line read of its record is granted (R146). -/
def Device.walkHalts (d : Device) : Prop :=
  d.rollback.state = .read ∧ d.rollback.walk.map (·.words) = some [] ∧ ∀ l, d.port.inFlight ≠ some (.read .walk l)

/-- A pass stops at the entry to HOLDING: no line read of the header is granted (R127). -/
def Device.passStops (d : Device) : Prop :=
  d.journal.pass.map (·.words) = some [] ∧ ∀ l, d.port.inFlight ≠ some (.read .header l)

/-- The journal controller's requests that end at the entry to HOLDING (R124, R127). -/
def Journal.heldRequests (j : Journal) : Journal :=
  { j with
    passAgain := false, reclaim := .idle, reclaimAgain := false, forcedPending := false
    formatting := j.formatting && decide (j.anchor.map (·.why) = some .format) }

/-- `e` is `d` when HOLDING has been entered with the causes of `part`: READY is negated, the leases stop, a waiting cycle
is answered HELD, a walk and a pass with no read granted stop and withdraw it, the journal's requests end, and every
other request stands (R32, R34, R63, R127, R146, R166, R168). -/
def holdingEntered (part : PartControl) (d e : Device) : Prop :=
  e.part = { part with state := .holding, scan := none } ∧ e.readyLine = false
    ∧ e.host = d.heldHost ∧ (∀ c, e.ctx c = d.stoppedContext c)
    ∧ (d.walkHalts → e.rollback = { d.rollback with state := .halted }) ∧ (¬ d.walkHalts → e.rollback = d.rollback)
    ∧ (¬ d.passStops → e.journal = d.journal.heldRequests)
    ∧ (d.passStops → ∀ p, d.journal.pass = some p → e.journal = { d.journal.heldRequests with
        pass := none
        debt := if p.start ≠ d.journal.liveTail ∧ d.journal.debt < 255 then d.journal.debt + 1
                else d.journal.debt })
    ∧ ∀ a, a ≠ .refresh → (a ∈ e.port.asked ↔ a ∈ d.port.asked ∧ (d.walkHalts → ∀ l, a ≠ .read .walk l)
        ∧ (d.passStops → ∀ l, a ≠ .read .header l))

/-! ### Starts -/

/-- `e` is `d` with a start of kind `kind` begun over the straps `st`: at BRINGUP, with everything cleared that a start
clears, the memory port at work on the DRAM, and for POWER_ON and RST the values after reset, for RESTART the values
kept and a waiting APPLY copied (R13, R161, R162, R171). -/
def startBegun (kind : StartKind) (st : Straps) (d e : Device) : Prop :=
  unchangedBut [.host, .regions, .contexts, .own, .queue, .engine, .journal, .rollback, .port, .part, .mgmt] d e
    ∧ e.part = { d.part with
        state := .starting, phase := some .bringUp, kind := kind, straps := st, scan := none
        holdFlag := if kind = .restart then d.part.holdFlag else false
        report := { kind := kind, cond := .blank, reason := .none, stopPos := 0, scanned := 0, found := 0
                    rolledBack := 0, complete := false } }
    ∧ e.host.mode = .idle ∧ (∀ c, e.ctx c = ContextEntry.cleared) ∧ e.own = [] ∧ e.queue = [] ∧ e.engine = .idle
    ∧ e.journal = Journal.cleared ∧ e.rollback = { list := [], state := .idle, walk := none }
    ∧ (d.port.state = .unconfigured → e.port = { d.port with state := .bringingUp, waiting := [], inFlight := none })
    ∧ (d.port.state = .selfRefresh →
        e.port = { d.port with state := .exiting, owed := 0, waiting := [], inFlight := none })
    ∧ (kind = .restart → e.mgmt = d.mgmt ∧ e.host.refusal = d.host.refusal
        ∧ e.regions.pendingTable = d.regions.pendingTable ∧ e.regions.applyWaiting = false
        ∧ e.regions.active = if d.regions.applyWaiting then d.regions.pendingTable else d.regions.active)
    ∧ (kind ≠ .restart → e.mgmt = Management.defaults .idle ∧ e.regions = RegionMap.cleared
        ∧ e.host.refusal = RefusalRecord.empty)

/-! ### Invariants -/

/-- Every step keeps `Inv`. -/
def keptByStep (Inv : State → Prop) : Prop := ∀ s t, Inv s → step s = .next t → Inv t

/-- The DRAM is in its canonical form. -/
def MemoryInv (s : State) : Prop := s.dev.dram.wf = true

/-- The capacities and caps of the tables and counters (R65, R83, R102, R157), and no line with two owners (R66). -/
def BoundsInv (s : State) : Prop :=
  s.dev.queue.length ≤ 8 ∧ s.dev.own.length ≤ 128 ∧ s.dev.port.owed ≤ 5 ∧ s.dev.journal.debt ≤ 255
    ∧ (s.dev.own.map (·.line)).Nodup

/-- A context's queued-entry count is the number of queue entries that carry it (R41); in STARTING the queue is empty and
no cycle waits (R19, R100). -/
def QueuedInv (s : State) : Prop :=
  (∀ c, (s.dev.ctx c).queued = s.dev.queue.countP fun e => decide (e.ctx? = some c))
    ∧ (s.dev.part.state = .starting → s.dev.queue = [] ∧ ∀ w, s.dev.host.mode ≠ .waiting w)

/-- A context's owned-line count is the number of ownership entries that name it (R40), and every ownership entry belongs
to the current instance of a context that is not FREE (R66); in STARTING no line is owned (R81). -/
def OwnershipInv (s : State) : Prop :=
  (∀ c, (s.dev.ctx c).owned = s.dev.own.countP fun e => decide (e.ctx = c))
    ∧ (∀ e ∈ s.dev.own, (s.dev.ctx e.ctx).state ≠ .free ∧ e.inst = (s.dev.ctx e.ctx).inst)
    ∧ (s.dev.part.state = .starting → s.dev.own = [])

/-- The settings stay in their ranges (R195). -/
def SettingsInv (s : State) : Prop :=
  let x := s.dev.mgmt.settings
  1 ≤ x.waitLimit ∧ x.waitLimit ≤ 1023 ∧ 1 ≤ x.leaseLength ∧ x.leaseLength ≤ 65535 ∧ x.anchorDefer ≤ 6
    ∧ 1 ≤ x.lowWater ∧ x.lowWater ≤ 15 ∧ 4 ≤ x.refreshPeriod ∧ x.refreshPeriod ≤ 31

/-- Nothing that a command's end would do is left to do: the closing anchor write, the entry to self-refresh, the grant
(R154, R169, R181); the refresh logic's request is not among those waiting (R157); an IDLE engine has no entry to take
up (R86). -/
def SettledInv (s : State) : Prop :=
  s.dev.settle = s.dev ∧ Access.refresh ∉ s.dev.port.waiting ∧ (s.dev.engine = .idle → s.dev.queue = [])

/-- STOPPED is the part state exactly while RST is asserted or power-on is not complete, and in it every block is
stopped (R19, R86, R136, R160, R165, R172, R187). -/
def StoppedInv (s : State) : Prop :=
  let d := s.dev
  (d.part.state = .stopped ↔ (d.part.rst = true ∨ d.part.powered = false))
    ∧ (d.part.state = .stopped ↔ d.host.mode = .stopped)
    ∧ (d.part.state = .stopped →
        d.engine = .stopped ∧ d.rollback.state = .stopped ∧ d.port.inFlight = none ∧ d.port.waiting = []
          ∧ d.port.timer.running = false ∧ (d.port.state = .unconfigured ∨ d.port.state = .selfRefresh)
          ∧ d.mgmt.frame = .stopped ∧ d.mgmt.current = none)

/-- The frame state is IDLE or STOPPED with no frame in progress, and else says what of the frame has arrived; a snapshot
stands exactly when a READ that declares a length has its item bytes, with one value for each word (R187, R189). -/
def FrameInv (s : State) : Prop :=
  match s.dev.mgmt.current with
  | none => s.dev.mgmt.frame = .idle ∨ s.dev.mgmt.frame = .stopped
  | some p =>
    let f : Frame := { bytes := p.bytes, extraBits := 0, ended := false }
    s.dev.mgmt.frame = framePhase f
      ∧ p.snapshot.map (·.length) = if f.isWrite ∨ p.bytes.length < 3 then none else f.words

/-- Used active entries name a mode and a view, and so do the pending ones while an APPLY waits (R1, R6, R8). -/
def RegionsInv (s : State) : Prop :=
  (∀ i : Fin 8, (s.dev.regions.active[i]).used = true → (s.dev.regions.active[i]).named = true)
    ∧ (s.dev.regions.applyWaiting = true →
        ∀ i : Fin 8, (s.dev.regions.pendingTable[i]).used = true → (s.dev.regions.pendingTable[i]).named = true)

end Sys2Proof.Machine
end

