-- ==== Sys2Proof/Certificates/Slice0/Obligations.lean ====
section
/-! DEFINITION. The statements for the provers, by chapter of the spec. A statement says of a command in which states it
completes, what the next state is, and which blocks stand as before. Premises on a state that are no part of the rule
are invariants stated here too. -/

open Sys2Proof Sys2Proof.Machine

/-! ### The step -/

/-- A step executes the command at the front of the queue on the state with the queue's rest. -/
def Obligations.StepRunsFrontCommand : Prop :=
  ∀ (c : Instr) (rest : List Instr) (d : Device),
    step { pending := c :: rest, dev := d } = exec c { pending := rest, dev := d }

/-- The model's choice (log 6): on an empty queue time passes on the running timers, and nothing else changes. -/
def Obligations.EmptyQueueLetsTimePass : Prop :=
  ∀ s : State, s.pending = [] → ∃ t, step s = .next t ∧ t.pending = []
    ∧ unchangedBut [.contexts, .host, .port] s.dev t.dev
    ∧ (∀ c, t.dev.ctx c = { s.dev.ctx c with lease := (t.dev.ctx c).lease }
        ∧ (t.dev.ctx c).lease.running = (s.dev.ctx c).lease.running
        ∧ (t.dev.ctx c).lease.lengthMs = (s.dev.ctx c).lease.lengthMs
        ∧ ((s.dev.ctx c).lease.running = false → (t.dev.ctx c).lease = (s.dev.ctx c).lease)
        ∧ ((s.dev.ctx c).lease.running = true →
            (t.dev.ctx c).lease.elapsed = min ((s.dev.ctx c).lease.elapsed + 1) (2000 * (s.dev.ctx c).lease.lengthMs)))
    ∧ t.dev.host = { s.dev.host with mode := t.dev.host.mode }
    ∧ (∀ w, s.dev.host.mode = .waiting w → t.dev.host.mode =
        .waiting { w with timer := { w.timer with elapsed := min (w.timer.elapsed + 1) (2 * w.timer.limit) } })
    ∧ (∀ r, s.dev.host.mode = .reading r → t.dev.host.mode = .reading { r with
        timer := r.timer.map fun x => { x with elapsed := min (x.elapsed + 1) (2 * x.limit) } })
    ∧ (s.dev.host.mode = .idle ∨ s.dev.host.mode = .stopped → t.dev.host.mode = s.dev.host.mode)
    ∧ t.dev.port = { s.dev.port with timer := t.dev.port.timer }
    ∧ (s.dev.port.timer.running = false → t.dev.port.timer = s.dev.port.timer)
    ∧ (s.dev.port.timer.running = true → t.dev.port.timer = { s.dev.port.timer with
        elapsed := min (s.dev.port.timer.elapsed + 1) s.dev.port.timer.interval })

/-- No command touches the queue of the commands that wait. -/
def Obligations.ExecKeepsQueue : Prop :=
  ∀ (c : Instr) (s t : State), exec c s = .next t → t.pending = s.pending

/-- The machine when power comes: STOPPED and UNCONFIGURED, with the values of power-on in every block. That the blocks
hold these values before the first start, which the spec's rules set at the start, is the model's choice (log 5), and
so are the levels of the lines (log 3). -/
def Obligations.ResetValues : Prop :=
  let d := State.reset.dev
  State.reset.pending = [] ∧ d.part.state = .stopped ∧ d.part.phase = none ∧ d.part.holdFlag = false
    ∧ d.port.state = .unconfigured ∧ d.port.inFlight = none ∧ d.port.waiting = [] ∧ d.host.mode = .stopped
    ∧ d.host.refusal = { addr := 0, code := .okay, ctx := 0, kind := .read }
    ∧ d.engine = .stopped ∧ d.queue = [] ∧ d.own = [] ∧ d.rollback = { list := [], state := .stopped, walk := none }
    ∧ (∀ c, (d.ctx c).state = .free ∧ (d.ctx c).lease.running = false ∧ (d.ctx c).outcome = .none)
    ∧ (∀ i : Fin 8, (d.regions.active[i]).used = false ∧ (d.regions.pendingTable[i]).used = false)
    ∧ d.regions.applyWaiting = false ∧ d.journal.cond = .blank ∧ d.journal.nextSeq = 1 ∧ d.journal.nextInst = 1
    ∧ d.journal.reserved = 0 ∧ d.journal.debt = 0
    ∧ d.mgmt.settings = { burstOrder := .sequential, waitLimit := 100, leaseLength := 2000, leaseAction := .report,
                          anchorDefer := 2, lowWater := 2, refreshPeriod := 12 }
    ∧ d.mgmt.frame = .stopped ∧ d.mgmt.current = none ∧ d.mgmt.lastResult = .ok ∧ d.mgmt.causes = 0
    ∧ d.mgmt.mask = 0x7F ∧ d.mgmt.notedExpired = none
    ∧ d.mgmt.notedRevoked = none ∧ d.readyLine = false ∧ d.heldLine = false ∧ d.alertLine = false

/-! ### Invariants -/

/-- The invariants hold when power comes. -/
def Obligations.InvariantsHoldAtReset : Prop :=
  MemoryInv State.reset ∧ BoundsInv State.reset ∧ QueuedInv State.reset ∧ OwnershipInv State.reset
    ∧ SettingsInv State.reset ∧ StoppedInv State.reset ∧ FrameInv State.reset ∧ SettledInv State.reset
    ∧ RegionsInv State.reset

/-- Every step keeps the DRAM in its canonical form. -/
def Obligations.StepKeepsMemoryForm : Prop := keptByStep MemoryInv

/-- Every step keeps the capacities of the queue and the ownership table, the caps of the owed count and the anchor
debt, and one owner a line. -/
def Obligations.StepKeepsBounds : Prop := keptByStep BoundsInv

/-- Every step keeps each queued-entry count equal to the number of queue entries that carry the context, and each
owned-line count equal to the number of ownership entries of the context, every one of which belongs to the current
instance of a context that is not FREE. -/
def Obligations.StepKeepsCounts : Prop := keptByStep fun s => QueuedInv s ∧ OwnershipInv s

/-- Every step keeps the settings in their ranges. -/
def Obligations.StepKeepsSettingsInRange : Prop := keptByStep SettingsInv

/-- Every step keeps STOPPED tied to RST and to power-on, with every block stopped in it, and the frame state tied to
what of the frame in progress has arrived. -/
def Obligations.StepKeepsStopped : Prop := keptByStep fun s => StoppedInv s ∧ FrameInv s

/-- Every step leaves nothing ungranted, unclosed or untaken that its end would settle. -/
def Obligations.StepKeepsSettled : Prop := keptByStep fun s => StoppedInv s ∧ SettledInv s

/-- Every step keeps the used entries of the active table naming a mode and a view. -/
def Obligations.StepKeepsRegionsNamed : Prop := keptByStep RegionsInv

/-- The DRAM changes only by a completed line write, by RST, which cuts one, and by a loss of power; but for the loss of
power, only within the line of the access in flight. -/
def Obligations.MemoryChangesOnlyByWrites : Prop :=
  ∀ (c : Instr) (s t : State), exec c s = .next t →
    (c ∉ [.appendWriteComplete, .dataWriteComplete, .restoreWriteComplete, .anchorWriteComplete, .rstAsserted,
          .powerLoss] → t.dev.dram = s.dev.dram)
    ∧ (c ≠ .powerLoss → ∀ a, t.dev.dram.read a ≠ s.dev.dram.read a →
        ∃ u w, s.dev.port.inFlight = some (.write u w) ∧ w.line ≤ a ∧ a < w.line + 32)

/-- On a DRAM in canonical form a masked line write changes the bytes whose lanes it carries to its data, and leaves
every other byte. That the byte of lane `k` of word `i` lies at line + 4i + k is the model's choice (log 2). -/
def Obligations.LineWriteSetsItsLanes : Prop :=
  ∀ (m : Memory) (w : LineWrite), m.wf = true → (w.words.map (·.pos)).Nodup →
    (∀ x ∈ w.words, ∀ k : Fin 4, x.lanes.getLsbD k = true →
      (m.writeLine w).read (w.line + 4 * x.pos.val + k.val) = x.data.extractLsb' (8 * k.val) 8)
    ∧ ∀ a, (∀ x ∈ w.words, ∀ k : Fin 4, x.lanes.getLsbD k = true → a ≠ w.line + 4 * x.pos.val + k.val) →
        (m.writeLine w).read a = m.read a

/-! ### Regions -/

/-- The active table (R7): a read returns its entries, a write frame that names one is discarded with BAD_ITEM, and the
table changes only through the copy that completes an APPLY, one that waited or a valid one taken now while all is
quiet, and through the clearing at power-on and RST. That POWER_LOSS already clears it, for the power-on after it, is
the model's choice (log 5). -/
def Obligations.ActiveTableIsReadOnly : Prop :=
  (∀ (d : Device) (i : Fin 8),
      d.readItem (0x30 + 2 * i.val) = some ((d.regions.active[i]).base ++ (d.regions.active[i]).size)
      ∧ d.readItem (0x31 + 2 * i.val) = some (BitVec.ofNat 32 ((d.regions.active[i]).mode.toNat)
          ||| BitVec.ofNat 32 ((d.regions.active[i]).view.toNat) <<< 8))
  ∧ (∀ (s : State) (f : Frame) (w : Nat), s.takes f → SettledInv s → frameArrives f w →
      (f.row = .activeTable → exec (.activeTableWrite f) s =
        .next (s.withDev (s.dev.endFrame f s.dev .badItem)))
      ∧ (f.row = .pendingTable → 0x30 < f.item + w → exec (.pendingTableWrite f) s =
        .next (s.withDev (s.dev.endFrame f s.dev .badItem))))
  ∧ (∀ s t : State, step s = .next t →
      t.dev.regions.active = s.dev.regions.active
      ∨ (t.dev.regions.active = s.dev.regions.pendingTable ∧ t.dev.regions.applyWaiting = false
          ∧ (s.dev.regions.applyWaiting = true
            ∨ ∃ f rest, s.pending = .applyRequest f :: rest ∧ f.row = .apply ∧ s.takes f ∧ frameArrives f 1
                ∧ f.word 0 = 1 ∧ s.dev.pendingValid = true ∧ s.dev.quiet = true))
      ∨ (t.dev.regions.active = Vector.replicate 8 { base := 0, size := 0, mode := 0, view := 0 }
          ∧ ∃ c rest, s.pending = c :: rest
              ∧ (c = .powerLoss ∨ ∃ st, c = .powerOnComplete st ∨ c = .rstReleased st)))

/-- A write to pending table items is stored as given while apply-waiting is clear, and refused while it is set. -/
def Obligations.PendingTableWritten : Prop :=
  ∀ (s : State) (f : Frame) (w : Nat), s.takes f → SettledInv s → f.row = .pendingTable → frameArrives f w →
    f.item + w ≤ 0x30 →
    (s.dev.regions.applyWaiting = true →
      exec (.pendingTableWrite f) s = .next (s.withDev (s.dev.endFrame f s.dev .refused)))
    ∧ (s.dev.regions.applyWaiting = false → ∃ d, exec (.pendingTableWrite f) s = .next (s.withDev d)
        ∧ unchangedBut [.regions, .mgmt] s.dev d ∧ d.mgmt = (s.dev.endFrame f s.dev .ok).mgmt
        ∧ d.regions = { s.dev.regions with pendingTable := d.regions.pendingTable }
        ∧ (∀ i : Fin 8,
            (∀ k, k < w → f.item + k ≠ 0x20 + 2 * i.val) →
              (d.regions.pendingTable[i]).base = (s.dev.regions.pendingTable[i]).base
              ∧ (d.regions.pendingTable[i]).size = (s.dev.regions.pendingTable[i]).size)
        ∧ (∀ i : Fin 8,
            (∀ k, k < w → f.item + k ≠ 0x21 + 2 * i.val) →
              (d.regions.pendingTable[i]).mode = (s.dev.regions.pendingTable[i]).mode
              ∧ (d.regions.pendingTable[i]).view = (s.dev.regions.pendingTable[i]).view)
        ∧ (∀ (i : Fin 8) (k : Nat), k < w →
            (f.item + k = 0x20 + 2 * i.val →
              (d.regions.pendingTable[i]).base = (f.word k).extractLsb' 16 16
              ∧ (d.regions.pendingTable[i]).size = (f.word k).extractLsb' 0 16)
            ∧ (f.item + k = 0x21 + 2 * i.val →
              (d.regions.pendingTable[i]).mode = (f.word k).extractLsb' 0 4
              ∧ (d.regions.pendingTable[i]).view = (f.word k).extractLsb' 8 2)))

/-- APPLY: refused while one waits or when the pending table fails a test; else copied at once if no context is in use
and the queue holds PLAIN entries only, or left waiting. -/
def Obligations.ApplyByValidity : Prop :=
  ∀ (s : State) (f : Frame), s.takes f → SettledInv s → f.row = .apply → frameArrives f 1 → f.word 0 = 1 →
    let t := s.dev.regions.pendingTable
    let st := s.dev.part.straps
    let faulty := (∃ i : Fin 8, (t[i]).size ≠ 0 ∧
        (3 < (t[i]).mode.toNat ∨ 1 < (t[i]).view.toNat ∨ 65536 < (t[i]).base.toNat + (t[i]).size.toNat
          ∨ capacity st < 65536 * ((t[i]).base.toNat + (t[i]).size.toNat)
          ∨ journalBase st < 65536 * ((t[i]).base.toNat + (t[i]).size.toNat)))
      ∨ (∃ (i j : Fin 8) (u : Nat), i ≠ j ∧ (t[i]).covers u = true ∧ (t[j]).covers u = true)
    let quiet := (∀ c, (s.dev.ctx c).state = .free) ∧ ∀ e ∈ s.dev.queue, ∃ w, e = .plain w
    (s.dev.regions.applyWaiting = true ∨ faulty →
      exec (.applyRequest f) s = .next (s.withDev (s.dev.endFrame f s.dev .refused)))
    ∧ (s.dev.regions.applyWaiting = false → ¬ faulty → quiet →
      exec (.applyRequest f) s = .next (s.withDev
        ({ s.dev with regions := { s.dev.regions with active := t } }.endFrame f s.dev .ok)))
    ∧ (s.dev.regions.applyWaiting = false → ¬ faulty → ¬ quiet →
      exec (.applyRequest f) s = .next (s.withDev
        ({ s.dev with regions := { s.dev.regions with applyWaiting := true } }.endFrame f s.dev .ok)))

/-! ### Host bus cycles -/

/-- Outside RUNNING a cycle is answered NOT_READY in STARTING and HELD in HOLDING and HELD, with zeros, and nothing else
changes. While a cycle is in progress or the port is STOPPED none is taken (the model's choice, log 8). -/
def Obligations.CyclesOutsideRunning : Prop :=
  ∀ (i : Instr) (zeros : List Word) (s : State), cycleZeros i = some zeros →
    (s.dev.host.mode = .idle → s.dev.part.state = .starting → exec i s = .next (s.answered .notReady zeros))
    ∧ (s.dev.host.mode = .idle → s.dev.part.state = .holding ∨ s.dev.part.state = .held →
        exec i s = .next (s.answered .held zeros))
    ∧ (s.dev.host.mode ≠ .idle → exec i s = .next s)

/-- An address is classified OUTSIDE at or above the capacity, PROTECTED in the journal area, else by the used active
entry that covers its 64 KiB unit, else PASS with the CURRENT view. The straps select the capacity and the size of the
journal area, which lies at the top of memory and holds the anchor line and then the ring; the codes name the modes and the
views. -/
def Obligations.ClassifiedByAddress : Prop :=
  (∀ st : Straps,
    let area := match st.jsel.toNat with
      | 0 => 256 * 1024
      | 1 => 1024 * 1024
      | 2 => 4096 * 1024
      | _ => 16384 * 1024
    capacity st = (match st.msel.toNat with
      | 0 => 64 * 1048576
      | 1 => 128 * 1048576
      | 2 => 256 * 1048576
      | _ => 512 * 1048576)
    ∧ journalBase st = capacity st - area ∧ ringLength st = (area - 32) / 4
    ∧ ∀ p, ringAddr st p = journalBase st + 32 + 4 * p)
  ∧ ((List.range 16).map fun n => regionModeOf (BitVec.ofNat 4 n))
      = [some .pass, some .journal, some .strict, some .readonly] ++ List.replicate 12 none
  ∧ ((List.range 4).map fun n => readViewOf (BitVec.ofNat 2 n)) = [some .current, some .before, none, none]
  ∧ ∀ (d : Device) (addr : Word),
    let st := d.part.straps
    let entry := fun i : Fin 8 => d.regions.active[i]
    let covers := fun i : Fin 8 => (entry i).size ≠ 0 ∧ 65536 * (entry i).base.toNat ≤ addr.toNat
      ∧ addr.toNat < 65536 * ((entry i).base.toNat + (entry i).size.toNat)
    (capacity st ≤ addr.toNat → d.classify addr = .outside)
    ∧ (journalBase st ≤ addr.toNat → addr.toNat < capacity st → d.classify addr = .protectedArea)
    ∧ (addr.toNat < journalBase st → (∀ i, ¬ covers i) → d.classify addr = .region .pass .current)
    ∧ (addr.toNat < journalBase st → ∀ i mode view, covers i → (∀ k, covers k → k = i) →
        regionModeOf (entry i).mode = some mode → readViewOf (entry i).view = some view →
        d.classify addr = .region mode view)

/-- The word that each beat carries under both burst orders, each word of the burst block once: the block is the addressed
word, the aligned four words or the aligned line, and A1-A0 are not examined. And the words of a WRITE by position: of a
burst, each beat's word with every lane; of a single beat, the addressed word with the lanes given, or none when no lane is
set. -/
def Obligations.BeatsFollowBurstOrder : Prop :=
  (∀ addr : Word,
     blockBase addr .one = addr.toNat / 4 % 8 ∧ blockBase addr .four = 4 * (addr.toNat / 16 % 2)
     ∧ blockBase addr .eight = 0)
  ∧ BurstLen.one.beats = 1 ∧ BurstLen.four.beats = 4 ∧ BurstLen.eight.beats = 8
  ∧ (∀ a : Nat, (wordPos a).val = a / 4 % 8 ∧ lineOf a = a / 32 * 32)
  ∧ (∀ (st : Straps) (p : Nat), ringLine st p = (journalBase st + 32 + 4 * p) / 32 * 32)
  ∧ (∀ (addr : Word) (b : BurstLen),
     (∀ k, k < b.beats →
       (beatWord addr b .sequential k).val = blockBase addr b + (addr.toNat / 4 % b.beats + k) % b.beats
       ∧ (beatWord addr b .interleaved k).val = blockBase addr b + (addr.toNat / 4 % b.beats ^^^ k))
     ∧ ∀ o, (beatWords addr b o).Nodup ∧ ∀ i : Fin 8, i ∈ beatWords addr b o ↔
         blockBase addr b ≤ i.val ∧ i.val < blockBase addr b + b.beats)
  ∧ (∀ (c : WriteCycle) (o : BurstOrder), c.data.length = c.blen.beats →
     (c.blen = .one → c.lanes = 0 → writtenWords c o = [])
     ∧ (c.blen = .one → c.lanes ≠ 0 → ∀ v, c.data = [v] →
         writtenWords c o = [{ pos := wordPos c.addr.toNat, lanes := c.lanes, data := v }])
     ∧ (c.blen ≠ .one → ((writtenWords c o).map (·.pos)).Pairwise (· < ·)
         ∧ ∀ x, x ∈ writtenWords c o ↔
             ∃ k, k < c.blen.beats ∧ x = { pos := beatWord c.addr c.blen o k, lanes := 15, data := c.data.getD k 0 }))

/-- A READ is refused by its context lines or its address: the answer has zeros, and the refusal record is
overwritten. -/
def Obligations.ReadRefused : Prop :=
  ∀ (c : ReadCycle) (s : State), s.evaluates → SettledInv s →
    let zeros := List.replicate c.blen.beats (0 : Word)
    let st := s.dev.part.straps
    (5 ≤ c.ctxLines.toNat →
      exec (.hostRead c) s = .next (s.refusedCycle .badTag zeros c.addr c.ctxLines .read))
    ∧ (c.ctxLines.toNat < 5 → capacity st ≤ c.addr.toNat →
      exec (.hostRead c) s = .next (s.refusedCycle .outside zeros c.addr c.ctxLines .read))
    ∧ (c.ctxLines.toNat < 5 → journalBase st ≤ c.addr.toNat → c.addr.toNat < capacity st →
      exec (.hostRead c) s = .next (s.refusedCycle .protectedArea zeros c.addr c.ctxLines .read))

/-- A READ waits while a queue entry names its line, and then while its line's owner is UNDOING, or CLOSING and not the
reading context. -/
def Obligations.ReadWaits : Prop :=
  ∀ (c : ReadCycle) (s : State) (mode : RegionMode) (view : ReadView), s.evaluates → SettledInv s →
    c.ctxLines.toNat < 5 → s.dev.classify c.addr = .region mode view →
    let line := lineOf c.addr.toNat
    let cycle := Cycle.read c s.dev.mgmt.settings.burstOrder
    ((∃ e ∈ s.dev.queue, e.line? = some line) →
      exec (.hostRead c) s = .next (s.waitingOn cycle (.readAfterWrite line)))
    ∧ (∀ e, (∀ x ∈ s.dev.queue, x.line? ≠ some line) → mode = .journal ∨ mode = .strict →
        s.dev.ownerOf line = some e →
        (s.dev.ctx e.ctx).state = .undoing
          ∨ ((s.dev.ctx e.ctx).state = .closing ∧ ctxOfLines c.ctxLines ≠ some e.ctx) →
        exec (.hostRead c) s = .next (s.waitingOn cycle (.ownersRelease e.inst)))

/-- A READ that meets no wait and not the BEFORE view moves to READING with one line read of working memory. -/
def Obligations.ReadServedFromMemory : Prop :=
  ∀ (c : ReadCycle) (s : State) (mode : RegionMode) (view : ReadView), s.evaluates → SettledInv s →
    c.ctxLines.toNat < 5 → s.dev.classify c.addr = .region mode view →
    let line := lineOf c.addr.toNat
    (∀ x ∈ s.dev.queue, x.line? ≠ some line) →
    (∀ e, mode = .journal ∨ mode = .strict → s.dev.ownerOf line = some e →
      (s.dev.ctx e.ctx).state ≠ .undoing
      ∧ (ctxOfLines c.ctxLines ≠ some e.ctx → (s.dev.ctx e.ctx).state ≠ .closing
          ∧ (view = .before → (s.dev.ctx e.ctx).state ≠ .opened ∧ (s.dev.ctx e.ctx).state ≠ .spoiled))) →
    exec (.hostRead c) s = .next (s.withDev (Device.grant
      { s.dev with
        host := { s.dev.host with
          answer := none
          mode := .reading { cycle := c, timer := none, todo := [line], got := []
                             sources := (beatWords c.addr c.blen s.dev.mgmt.settings.burstOrder).map
                               fun i => line + 4 * i.val } }
        port := { s.dev.port with waiting := s.dev.port.waiting ++ [.read .host line] } }))

/-- Under the BEFORE view each word in the owner's logged set comes from its image, every other from working memory; one
line read is made for each distinct line, the first requested now. -/
def Obligations.ReadServedFromImages : Prop :=
  ∀ (c : ReadCycle) (s : State) (mode : RegionMode) (e : OwnEntry), s.evaluates → SettledInv s →
    c.ctxLines.toNat < 5 → s.dev.classify c.addr = .region mode .before → mode = .journal ∨ mode = .strict →
    let line := lineOf c.addr.toNat
    let order := s.dev.mgmt.settings.burstOrder
    (∀ x ∈ s.dev.queue, x.line? ≠ some line) → s.dev.ownerOf line = some e → ctxOfLines c.ctxLines ≠ some e.ctx →
    ((s.dev.ctx e.ctx).state = .opened ∨ (s.dev.ctx e.ctx).state = .spoiled) →
    (∀ i : Fin 8, e.words[i] ≠ some .pending) →
    ∃ (r : Reading) (first : Nat) (rest : List Nat),
      exec (.hostRead c) s = .next (s.withDev (Device.grant
        { s.dev with
          host := { s.dev.host with answer := none, mode := .reading r }
          port := { s.dev.port with waiting := s.dev.port.waiting ++ [.read .host first] } }))
      ∧ r.cycle = c ∧ r.timer = none ∧ r.got = [] ∧ r.todo = first :: rest ∧ r.todo.Nodup
      ∧ r.sources.length = c.blen.beats
      ∧ (∀ k, k < c.blen.beats → ∀ a, r.sources[k]? = some a →
          (∀ p, e.words[beatWord c.addr c.blen order k] = some (.position p) →
            a = journalBase s.dev.part.straps + 32 + 4 * p)
          ∧ (e.words[beatWord c.addr c.blen order k] = none → a = line + 4 * (beatWord c.addr c.blen order k).val))
      ∧ ∀ l, l ∈ r.todo ↔ ∃ a ∈ r.sources, l = lineOf a

/-- A line read of a READ completes: with another line to read that is requested; after the last the words are returned
in beat order with OKAY. -/
def Obligations.ReadAccessCompletes : Prop :=
  ∀ (s : State) (r : Reading) (line : Nat) (rest : List Nat), s.inFlight (.read .host line) line →
    s.dev.part.state = .running ∨ s.dev.part.state = .holding → s.dev.host.mode = .reading r →
    r.todo = line :: rest →
    (rest = [] → ∃ d, exec .hostReadAccessComplete s = .next (s.withDev d)
      ∧ unchangedBut [.host, .engine, .port] s.dev d
      ∧ d.host = { s.dev.host with mode := .idle, answer := d.host.answer }
      ∧ ∃ data, d.host.answer = some { code := .okay, data := data } ∧ data.length = r.sources.length
        ∧ ∀ (k a : Nat), r.sources[k]? = some a →
          (lineOf a = line → a % 4 = 0 → data[k]? = some (s.dev.dram.readWord a))
          ∧ (∀ ws, lineOf a ≠ line → r.got.lookup (lineOf a) = some ws → data[k]? = some (ws.getD (a / 4 % 8) 0)))
    ∧ (∀ next more, rest = next :: more → ∃ d, exec .hostReadAccessComplete s = .next (s.withDev d)
      ∧ unchangedBut [.host, .engine, .port] s.dev d
      ∧ d.host = { s.dev.host with
          mode := .reading { r with todo := rest, got := (line, s.dev.dram.readLine line) :: r.got } }
      ∧ .read .host next ∈ d.port.asked)

/-- A WRITE is refused by its context lines, by its address, in a READONLY region; in a JOURNAL or STRICT region for a
foreign owner that is OPEN or SPOILED, untagged under STRICT, and for a context that is not OPEN. -/
def Obligations.WriteRefused : Prop :=
  ∀ (c : WriteCycle) (s : State), s.evaluates → SettledInv s → c.data.length = c.blen.beats →
    let refused := fun code => exec (.hostWrite c) s = .next (s.refusedCycle code [] c.addr c.ctxLines .write)
    let st := s.dev.part.straps
    let line := lineOf c.addr.toNat
    (5 ≤ c.ctxLines.toNat → refused .badTag)
    ∧ (c.ctxLines.toNat < 5 → capacity st ≤ c.addr.toNat → refused .outside)
    ∧ (c.ctxLines.toNat < 5 → journalBase st ≤ c.addr.toNat → c.addr.toNat < capacity st → refused .protectedArea)
    ∧ (∀ view, c.ctxLines.toNat < 5 → s.dev.classify c.addr = .region .readonly view → refused .readonly)
    ∧ (∀ mode view, c.ctxLines.toNat < 5 → s.dev.classify c.addr = .region mode view →
        mode = .journal ∨ mode = .strict → c.blen ≠ .one ∨ c.lanes ≠ 0 →
        (∀ e, s.dev.ownerOf line = some e → ctxOfLines c.ctxLines ≠ some e.ctx →
          (s.dev.ctx e.ctx).state = .opened ∨ (s.dev.ctx e.ctx).state = .spoiled → refused .conflict)
        ∧ (s.dev.ownerOf line = none → mode = .strict → c.ctxLines = 0 → refused .untagged)
        ∧ (∀ x, ctxOfLines c.ctxLines = some x → (∀ e, s.dev.ownerOf line = some e → e.ctx = x) →
          (s.dev.ctx x).state ≠ .opened → refused .state))

/-- A WRITE that passes the address checks and is not placed: an empty one is answered OKAY with no effect; one to the
line of a foreign owner that is not OPEN or SPOILED waits for its release; one that finds the queue full waits for
space, a tagged one that has a needed word only with 14 words free, one whose words are all logged whatever is free; a tagged one that finds the ownership table full, or the journal full with no reclaim possible, is answered
NO_ROOM and spoils its context, and nothing else changes. -/
def Obligations.WriteNotAdmitted : Prop :=
  (∀ (c : WriteCycle) (s : State) (mode : RegionMode) (view : ReadView), s.evaluates → SettledInv s →
     c.data.length = c.blen.beats → c.ctxLines.toNat < 5 → s.dev.classify c.addr = .region mode view →
     mode ≠ .readonly →
     let line := lineOf c.addr.toNat
     let cycle := Cycle.write c s.dev.mgmt.settings.burstOrder
     let written := wordSetOf (writtenWords c s.dev.mgmt.settings.burstOrder)
     (c.blen = .one → c.lanes = 0 → exec (.hostWrite c) s = .next (s.answered .okay []))
     ∧ (c.blen ≠ .one ∨ c.lanes ≠ 0 →
       (mode ≠ .pass → ∀ e, s.dev.ownerOf line = some e → ctxOfLines c.ctxLines ≠ some e.ctx →
         (s.dev.ctx e.ctx).state ≠ .opened → (s.dev.ctx e.ctx).state ≠ .spoiled →
         exec (.hostWrite c) s = .next (s.waitingOn cycle (.ownersRelease e.inst)))
       ∧ (8 ≤ s.dev.queue.length → mode = .pass
             ∨ (mode = .journal ∧ c.ctxLines = 0 ∧ s.dev.ownerOf line = none) →
         exec (.hostWrite c) s = .next (s.waitingOn cycle .queueSpace))
       ∧ (8 ≤ s.dev.queue.length → mode ≠ .pass → ∀ x, ctxOfLines c.ctxLines = some x →
         (s.dev.ctx x).state = .opened → (∀ e, s.dev.ownerOf line = some e → e.ctx = x) →
         ((∀ e, s.dev.ownerOf line = some e → written &&& ~~~ e.logged ≠ 0) → (14 : Int) ≤ s.dev.free) →
         (s.dev.ownerOf line = none → s.dev.own.length < 128) →
         exec (.hostWrite c) s = .next (s.waitingOn cycle .queueSpace))))
  ∧ (∀ (c : WriteCycle) (s : State) (mode : RegionMode) (view : ReadView) (x : Ctx), s.evaluates → SettledInv s →
     c.data.length = c.blen.beats → s.dev.classify c.addr = .region mode view → mode = .journal ∨ mode = .strict →
     c.blen ≠ .one ∨ c.lanes ≠ 0 → ctxOfLines c.ctxLines = some x → (s.dev.ctx x).state = .opened →
     let owner := s.dev.ownerOf (lineOf c.addr.toNat)
     let written := wordSetOf (writtenWords c s.dev.mgmt.settings.burstOrder)
     let spoiled := fun cause => ∃ d, exec (.hostWrite c) s =
         .next ((s.withDev d).refusedCycle .noRoom [] c.addr c.ctxLines .write)
       ∧ unchangedBut [.contexts] s.dev d ∧ otherContexts x s.dev d
       ∧ d.ctx x = { s.dev.ctx x with state := .spoiled, spoil := some cause }
     (owner = none → 128 ≤ s.dev.own.length → spoiled .ownershipFull)
     ∧ ((owner = none → s.dev.own.length < 128) → (∀ e, owner = some e → e.ctx = x ∧ written &&& ~~~ e.logged ≠ 0) →
         s.dev.free < 14 → ¬ reclaimRule s.dev → spoiled .journalFull))

/-- A write that no journal record must precede is admitted: a PLAIN entry at the tail, answered OKAY; an IDLE engine
makes its data write; one in GATHER has the group that the queue forms. -/
def Obligations.PlainWriteAdmitted : Prop :=
  ∀ (c : WriteCycle) (s : State) (mode : RegionMode) (view : ReadView), s.evaluates → SettledInv s →
    c.data.length = c.blen.beats → c.ctxLines.toNat < 5 → s.dev.classify c.addr = .region mode view →
    c.blen ≠ .one ∨ c.lanes ≠ 0 →
    mode = .pass ∨ (mode = .journal ∧ c.ctxLines = 0 ∧ s.dev.ownerOf (lineOf c.addr.toNat) = none) →
    s.dev.queue.length < 8 →
    let w : LineWrite := { line := lineOf c.addr.toNat
                           words := writtenWords c s.dev.mgmt.settings.burstOrder }
    ∃ d, exec (.hostWrite c) s = .next (s.withDev d)
      ∧ unchangedBut [.host, .queue, .engine, .port] s.dev d
      ∧ d.host = { s.dev.host with mode := .idle, answer := some { code := .okay, data := [] } }
      ∧ d.queue = s.dev.queue ++ [.plain w] ∧ portKept s.dev d
      ∧ (s.dev.engine = .idle → d.engine = .data ∧ .write .data w ∈ d.port.asked)
      ∧ (s.dev.engine ≠ .idle → d.port = s.dev.port)
      ∧ (s.dev.engine ≠ .idle → (∀ g, s.dev.engine ≠ .gather g) → d.engine = s.dev.engine)
      ∧ (∀ g0 w0 x0 i0 n0 more, s.dev.engine = .gather g0 → s.dev.queue = .logged w0 x0 i0 n0 :: more →
          ∃ g, d.engine = .gather g ∧ gatheredFrom d.queue g)

/-- A tagged write of an OPEN context is admitted: COVERED when its words are all logged; else LOGGED, with its needed
words joining the logged set with pending locators, 14 words reserved, and a line without owner gaining an entry. An
IDLE engine takes the entry up; a LOGGED one alone is then the group, fixed at once where the port can grant its old-line
read. An engine in GATHER has the group that the queue with the new entry forms. The written words, the logged set, the
owner of a line and free space are what the ownership table and the journal's counts say. -/
def Obligations.TaggedWriteAdmitted : Prop :=
  (∀ (ws : List WordWrite) (i : Fin 8), (wordSetOf ws).getLsbD i.val = true ↔ ∃ w ∈ ws, w.pos = i)
  ∧ (∀ (e : OwnEntry) (i : Fin 8), e.logged.getLsbD i.val = true ↔ e.words[i] ≠ none)
  ∧ (∀ (l : BitVec 3) (x : Ctx), ctxOfLines l = some x ↔ l.toNat = x.val + 1)
  ∧ (∀ (d : Device) (line : Nat), (d.ownerOf line = none ↔ ∀ e ∈ d.own, e.line ≠ line)
     ∧ (∀ e, d.ownerOf line = some e → e ∈ d.own ∧ e.line = line)
     ∧ d.free = (d.ring : Int) - ((d.journal.head + d.ring - d.journal.anchoredTail) % d.ring : Nat)
         - d.journal.reserved - 14)
  ∧ ∀ (c : WriteCycle) (s : State) (mode : RegionMode) (view : ReadView) (x : Ctx), s.evaluates → SettledInv s →
    c.data.length = c.blen.beats → s.dev.classify c.addr = .region mode view → mode = .journal ∨ mode = .strict →
    c.blen ≠ .one ∨ c.lanes ≠ 0 → ctxOfLines c.ctxLines = some x → (s.dev.ctx x).state = .opened →
    s.dev.queue.length < 8 →
    let w : LineWrite := { line := lineOf c.addr.toNat
                           words := writtenWords c s.dev.mgmt.settings.burstOrder }
    let written := wordSetOf w.words
    let inst := (s.dev.ctx x).inst
    let gathers := fun (d : Device) =>
      (∀ g0 w0 x0 i0 n0 more, s.dev.engine = .gather g0 → s.dev.queue = .logged w0 x0 i0 n0 :: more →
        ∃ g, d.engine = .gather g ∧ gatheredFrom d.queue g)
      ∧ (s.dev.engine ≠ .idle → (∀ g, s.dev.engine ≠ .gather g) → d.engine = s.dev.engine)
      ∧ (s.dev.engine ≠ .idle → d.port = s.dev.port)
    let logged := fun (needed : WordSet) (d : Device) =>
      unchangedBut [.host, .contexts, .own, .queue, .engine, .journal, .port, .mgmt] s.dev d
      ∧ d.host = { s.dev.host with mode := .idle, answer := some { code := .okay, data := [] } }
      ∧ d.queue = s.dev.queue ++ [.logged w x inst needed]
      ∧ d.journal = { s.dev.journal with reserved := s.dev.journal.reserved + 14 }
      ∧ otherContexts x s.dev d ∧ portKept s.dev d
      ∧ d.mgmt = { s.dev.mgmt with causes := s.dev.lowCauses s.dev.journal d.journal s.dev.mgmt.causes }
      ∧ (s.dev.engine = .idle → .read .oldLine w.line ∈ d.port.asked
          ∧ ∃ g, gatheredFrom d.queue g ∧ d.engine =
              if s.dev.port.state = .active ∧ s.dev.port.inFlight = none then .oldRead g else .gather g)
      ∧ gathers d
    (∀ e, s.dev.ownerOf w.line = some e → e.ctx = x → written &&& ~~~ e.logged = 0 →
      ∃ d, exec (.hostWrite c) s = .next (s.withDev d)
        ∧ unchangedBut [.host, .contexts, .queue, .engine, .port] s.dev d
        ∧ d.host = { s.dev.host with mode := .idle, answer := some { code := .okay, data := [] } }
        ∧ d.queue = s.dev.queue ++ [.covered w x inst]
        ∧ d.ctx x = { s.dev.ctx x with queued := (s.dev.ctx x).queued + 1 } ∧ otherContexts x s.dev d
        ∧ portKept s.dev d ∧ (s.dev.engine = .idle → d.engine = .data ∧ .write .data w ∈ d.port.asked) ∧ gathers d)
    ∧ (∀ e, s.dev.ownerOf w.line = some e → e.ctx = x → written &&& ~~~ e.logged ≠ 0 → (14 : Int) ≤ s.dev.free →
      ∃ d, exec (.hostWrite c) s = .next (s.withDev d) ∧ logged (written &&& ~~~ e.logged) d
        ∧ d.ctx x = { s.dev.ctx x with queued := (s.dev.ctx x).queued + 1 }
        ∧ d.own = s.dev.own.map fun o =>
            if o.line = w.line then o.withPending (written &&& ~~~ e.logged) else o)
    ∧ (s.dev.ownerOf w.line = none → s.dev.own.length < 128 → (14 : Int) ≤ s.dev.free →
      ∃ d e, exec (.hostWrite c) s = .next (s.withDev d) ∧ logged written d
        ∧ d.ctx x = { s.dev.ctx x with queued := (s.dev.ctx x).queued + 1, owned := (s.dev.ctx x).owned + 1 }
        ∧ d.own = s.dev.own ++ [e] ∧ e.line = w.line ∧ e.ctx = x ∧ e.inst = inst
        ∧ ∀ i : Fin 8, e.words[i] = if written.getLsbD i.val then some Locator.pending else none)

/-- A LOGGED write with less than 14 words free, and an OPEN with less than 12, wait for journal room and start a forced
reclaim, where reclaim is possible: with a new pass, over the running pass, or as a further reclaim; one in its pass
stage takes the request in. The model's readings: over a running pass a further pass is flagged, and a request taken in
flags none (log 16); an anchor write issued at once, while a pass is behind a record, carries the number that follows that
record's (log 38). -/
def Obligations.RoomWaitStartsReclaim : Prop :=
  ∀ s : State, s.evaluates → SettledInv s → reclaimRule s.dev →
    let waits := fun (i : Instr) (cycle : Cycle) => ∃ d, exec i s = .next (s.withDev d)
      ∧ unchangedBut [.host, .journal, .port] s.dev d
      ∧ d.host = { s.dev.host with mode := s.dev.newWait cycle .journalRoom, answer := none }
      ∧ d.journal = s.dev.reclaimRequested s.dev.journal ∧ d.journal.reclaim ≠ .idle
      ∧ headerAsked s.dev.journal d ∧ anchorAsked s.dev.journal d ∧ portKept s.dev d
    (∀ (m : MarkCycle) (c : Ctx), markRequest m.addr = some (.openKind, c) → s.dev.free < 12 →
      (s.dev.ctx c).state = .free → s.dev.regions.applyWaiting = false → waits (.openMark m) (.openMark c))
    ∧ (∀ (c : WriteCycle) (mode : RegionMode) (view : ReadView) (x : Ctx), s.dev.free < 14 →
      c.data.length = c.blen.beats → s.dev.classify c.addr = .region mode view → mode = .journal ∨ mode = .strict →
      c.blen ≠ .one ∨ c.lanes ≠ 0 → ctxOfLines c.ctxLines = some x → (s.dev.ctx x).state = .opened →
      let line := lineOf c.addr.toNat
      let written := wordSetOf (writtenWords c s.dev.mgmt.settings.burstOrder)
      (∀ e, s.dev.ownerOf line = some e → e.ctx = x ∧ written &&& ~~~ e.logged ≠ 0) →
      (s.dev.ownerOf line = none → s.dev.own.length < 128) →
      waits (.hostWrite c) (.write c s.dev.mgmt.settings.burstOrder))

/-! ### Marks, the wait limit and the leases -/

/-- An OPEN that passes the state, condition, room and queue tests is admitted; an idle engine asks for its record. -/
def Obligations.OpenAdmitted : Prop :=
  ∀ (m : MarkCycle) (c : Ctx) (s : State), markRequest m.addr = some (.openKind, c) → s.evaluates → SettledInv s →
    (s.dev.ctx c).state = .free → s.dev.journal.cond = .valid →
    s.dev.regions.applyWaiting = false → (12 : Int) ≤ s.dev.free → s.dev.queue.length < 8 →
    let inst : Word := if s.dev.journal.nextInst = 0 then 1 else s.dev.journal.nextInst
    let j := { s.dev.journal with reserved := s.dev.journal.reserved + 12, nextInst := inst + 1 }
    let req : RecordReq := { kind := .openRec, ctx := c, inst := inst, byte1 := 0, line := 0, images := [], members := 0 }
    let s1 : Device := { s.dev with journal := j }
    ∃ d, exec (.openMark m) s = .next (s.withDev d)
      ∧ unchangedBut [.host, .contexts, .queue, .engine, .journal, .port, .mgmt] s.dev d
      ∧ otherContexts c s.dev d ∧ portKept s.dev d
      ∧ d.ctx c = { s.dev.ctx c with
          state := .opened, inst := inst, leaseExpired := false, spoil := none, owned := 0, newest := none
          lease := { running := true, lengthMs := s.dev.mgmt.settings.leaseLength, elapsed := 0 }
          queued := (s.dev.ctx c).queued + 1 }
      ∧ d.host = { s.dev.host with mode := .idle
                                   answer := some { code := .okay, data := [replyWord .opened (d.ctx c)] } }
      ∧ d.queue = s.dev.queue ++ [.openEntry c inst]
      ∧ d.mgmt = { s.dev.mgmt with
          causes := s.dev.lowCauses j d.journal (s.dev.lowCauses s.dev.journal j s.dev.mgmt.causes) }
      ∧ (s.dev.engine = .idle → d.engine = .openRecord ∧ d.journal = s1.appendAsked .writeEngine req
          ∧ (s.dev.journal.append = none → firstAsked (s1.placedAppend .writeEngine req) d)
          ∧ (s.dev.journal.append ≠ none → d.port = s.dev.port))
      ∧ (s.dev.engine ≠ .idle → d.journal = j ∧ d.port = s.dev.port)

/-- OPEN, COMMIT and ABANDON marks that the context's state, the condition, a waiting APPLY or the room turns away are
answered OKAY with their reply and change nothing; an OPEN or COMMIT that finds the queue full waits for space; a mark
whose kind or context names nothing is answered BADTAG with data 0 and recorded. A mark's address names its request by
A10-A8 and its context by A2-A0. -/
def Obligations.MarksTurnedAway : Prop :=
  (∀ (addr : Word) (k : MarkKind) (c : Ctx), markRequest addr = some (k, c) ↔
     addr.toNat % 8 = c.val + 1 ∧ addr.toNat / 256 % 8 = match k with
       | .openKind => 1
       | .commitKind => 2
       | .abandonKind => 3
       | .renewKind => 4
       | .queryKind => 5)
  ∧ (∀ (o m a : MarkCycle) (c : Ctx) (s : State), markRequest o.addr = some (.openKind, c) →
     markRequest m.addr = some (.commitKind, c) → markRequest a.addr = some (.abandonKind, c) → s.evaluates →
     SettledInv s →
     let x := s.dev.ctx c
     let replied := fun (i : Instr) r => exec i s = .next (s.answered .okay [replyWord r x])
     (x.state ≠ .free → replied (.openMark o) .busy)
     ∧ (x.state = .free → s.dev.journal.cond ≠ .valid → replied (.openMark o) .unavailable)
     ∧ (x.state = .free → s.dev.journal.cond = .valid → s.dev.regions.applyWaiting = true →
         replied (.openMark o) .deferred)
     ∧ (x.state = .free → s.dev.journal.cond = .valid → s.dev.regions.applyWaiting = false →
         (s.dev.free < 12 → ¬ reclaimRule s.dev → replied (.openMark o) .noRoom)
         ∧ ((12 : Int) ≤ s.dev.free → 8 ≤ s.dev.queue.length →
             exec (.openMark o) s = .next (s.waitingOn (.openMark c) .queueSpace)))
     ∧ (x.state = .spoiled → replied (.commitMark m) .refused)
     ∧ (x.state = .free ∨ x.state = .closing ∨ x.state = .undoing →
         replied (.commitMark m) .busy ∧ replied (.abandonMark a) .busy)
     ∧ (x.state = .opened → 8 ≤ s.dev.queue.length →
         exec (.commitMark m) s = .next (s.waitingOn (.commitMark c) .queueSpace)))
  ∧ (∀ (m : MarkCycle) (s : State), s.evaluates → SettledInv s →
     m.addr.extractLsb' 8 3 ∈ [0#3, 6#3, 7#3] ∨ m.addr.extractLsb' 0 3 ∈ [0#3, 5#3, 6#3, 7#3] →
     exec (.markBadTag m) s = .next (s.refusedCycle .badTag [0] m.addr (m.addr.extractLsb' 0 3) .mark))

/-- A COMMIT of an OPEN context is taken: CLOSING, the lease stopped, the entry queued, and the cycle waits with the
commit waiter flag set; an idle engine asks for the COMMIT record. -/
def Obligations.CommitTaken : Prop :=
  ∀ (m : MarkCycle) (c : Ctx) (s : State), markRequest m.addr = some (.commitKind, c) → s.evaluates → SettledInv s →
    (s.dev.ctx c).state = .opened → s.dev.queue.length < 8 →
    let req : RecordReq := { kind := .commit, ctx := c, inst := (s.dev.ctx c).inst, byte1 := 0, line := 0, images := []
                             members := 0 }
    ∃ d, exec (.commitMark m) s = .next (s.withDev d)
      ∧ unchangedBut [.host, .contexts, .queue, .engine, .journal, .port, .mgmt] s.dev d
      ∧ otherContexts c s.dev d ∧ portKept s.dev d
      ∧ d.ctx c = { s.dev.ctx c with
          state := .closing, lease := { (s.dev.ctx c).lease with running := false }, commitWaiter := true
          queued := (s.dev.ctx c).queued + 1 }
      ∧ d.host = { s.dev.host with mode := s.dev.newWait (.commitMark c) (.commitCompletion c), answer := none }
      ∧ d.queue = s.dev.queue ++ [.commitEntry c (s.dev.ctx c).inst]
      ∧ (s.dev.engine = .idle → d.engine = .committing ∧ d.journal = s.dev.appendAsked .writeEngine req
          ∧ (s.dev.journal.append = none → firstAsked (s.dev.placedAppend .writeEngine req) d)
          ∧ (s.dev.journal.append ≠ none → d.port = s.dev.port))
      ∧ d.mgmt = { s.dev.mgmt with causes := s.dev.lowCauses s.dev.journal d.journal s.dev.mgmt.causes }
      ∧ (s.dev.engine ≠ .idle → d.journal = s.dev.journal ∧ d.port = s.dev.port)

/-- An ABANDON of an OPEN or SPOILED context is taken: UNDOING, the lease stopped, the instance at the tail of the
rollback list, of which an idle engine selects the first entry whose context has no queued entry. -/
def Obligations.AbandonTaken : Prop :=
  ∀ (m : MarkCycle) (c : Ctx) (s : State), markRequest m.addr = some (.abandonKind, c) → s.evaluates → SettledInv s →
    (s.dev.ctx c).state = .opened ∨ (s.dev.ctx c).state = .spoiled →
    let e : ListEntry := { ctx := c, inst := (s.dev.ctx c).inst, outcome := .abandoned }
    ∃ d, exec (.abandonMark m) s = .next (s.withDev d)
      ∧ unchangedBut [.host, .contexts, .rollback, .port] s.dev d ∧ otherContexts c s.dev d ∧ portKept s.dev d
      ∧ d.ctx c = { s.dev.ctx c with
          state := .undoing, lease := { (s.dev.ctx c).lease with running := false }, spoil := none }
      ∧ d.host = { s.dev.host with mode := .idle
                                   answer := some { code := .okay, data := [replyWord .accepted (d.ctx c)] } }
      ∧ walkChosen { s.dev.rollback with list := s.dev.rollback.list ++ [e] } s.dev d
      ∧ (s.dev.rollback.state ≠ .idle → d.port = s.dev.port)

/-- R47: RENEW restarts the lease and clears the lease-expired flag in OPEN and SPOILED, and is BUSY else. -/
def Obligations.RenewByState : Prop :=
  ∀ (m : MarkCycle) (c : Ctx) (s : State), markRequest m.addr = some (.renewKind, c) → s.evaluates → SettledInv s →
    ((s.dev.ctx c).state = .opened ∨ (s.dev.ctx c).state = .spoiled → ∃ d,
      exec (.renewMark m) s = .next ((s.withDev d).answered .okay [replyWord .accepted (d.ctx c)])
      ∧ unchangedBut [.contexts] s.dev d ∧ otherContexts c s.dev d
      ∧ d.ctx c = { s.dev.ctx c with
          lease := { running := true, lengthMs := s.dev.mgmt.settings.leaseLength, elapsed := 0 }
          leaseExpired := false })
    ∧ ((s.dev.ctx c).state = .free ∨ (s.dev.ctx c).state = .closing ∨ (s.dev.ctx c).state = .undoing →
      exec (.renewMark m) s = .next (s.answered .okay [replyWord .busy (s.dev.ctx c)]))

/-- R48: QUERY is answered STATUS in every context state and changes nothing; outside RUNNING it does not reach the
context; the management port reads the same fields. The reply word holds result, state, lease expired, owned lines or
last outcome, and the low half of the instance number in their bits (R35). -/
def Obligations.QueryByState : Prop :=
  ∀ (m : MarkCycle) (c : Ctx) (s : State), markRequest m.addr = some (.queryKind, c) → SettledInv s →
    (s.evaluates → exec (.queryMark m) s = .next (s.answered .okay [replyWord .status (s.dev.ctx c)]))
    ∧ (s.dev.host.mode = .idle → s.dev.part.state = .starting →
        exec (.queryMark m) s = .next (s.answered .notReady [0]))
    ∧ (s.dev.host.mode = .idle → s.dev.part.state = .holding ∨ s.dev.part.state = .held →
        exec (.queryMark m) s = .next (s.answered .held [0]))
    ∧ s.dev.readItem (0x10 + 2 * c.val) = some (replyWord .status (s.dev.ctx c))
    ∧ s.dev.readItem (0x18 + c.val) = some (s.dev.ctx c).inst
    ∧ (∀ f : Frame, f.row = .read → f.ended = true → s.takes f → s.dev.mgmt.current = none → f.words = some 1 →
        f.item = 0x10 + 2 * c.val → 7 ≤ f.bytes.length → ∃ d, exec (.managementReadFrame f) s = .next (s.withDev d)
          ∧ (d.mgmt.mdo.drop 3).take 4 = wordBytes (replyWord .status (s.dev.ctx c)))
    ∧ replyLayout

/-- The wait limit: a waiting cycle is answered TIMEOUT and has no effect, a COMMIT whose entry is queued PENDING. A lease:
under REPORT its flag is set and LEASE_EXPIRED raised; under REVOKE the context is UNDOING, listed with outcome
REVOKED, and REVOKED is raised, and an idle rollback engine selects. The model's choices: an
expiry in READING only stops the timer (log 35); what does not
run does not expire (log 9). -/
def Obligations.TimersExpire : Prop :=
  (∀ s : State, SettledInv s → s.dev.part.state = .running →
     (∀ w, s.dev.host.mode = .waiting w → (∀ c, w.cond ≠ .commitCompletion c) →
       exec .waitLimitExpiry s = .next (s.answered .timeout w.cycle.zeros))
     ∧ (∀ w c, s.dev.host.mode = .waiting w → w.cond = .commitCompletion c → ∃ d,
       exec .waitLimitExpiry s = .next ((s.withDev d).answered .okay [replyWord .pending (d.ctx c)])
       ∧ unchangedBut [.contexts] s.dev d ∧ otherContexts c s.dev d
       ∧ d.ctx c = { s.dev.ctx c with commitWaiter := false })
     ∧ (∀ r, s.dev.host.mode = .reading r →
       (r.timer ≠ none → exec .waitLimitExpiry s = .next (s.withDev
         { s.dev with host := { s.dev.host with mode := .reading { r with timer := none } } }))
       ∧ (r.timer = none → exec .waitLimitExpiry s = .refused .eventCannotOccur))
     ∧ (s.dev.host.mode = .idle → exec .waitLimitExpiry s = .refused .eventCannotOccur))
  ∧ (∀ (c : Ctx) (s : State), SettledInv s → s.dev.part.state = .running →
     let x := s.dev.ctx c
     let stopped := { x.lease with running := false }
     (x.lease.running = true → x.state = .opened ∨ x.state = .spoiled →
       (s.dev.mgmt.settings.leaseAction = .report → ∃ d, exec (.leaseExpiry c) s = .next (s.withDev d)
         ∧ unchangedBut [.contexts, .mgmt] s.dev d ∧ otherContexts c s.dev d
         ∧ d.ctx c = { x with leaseExpired := true, lease := stopped }
         ∧ d.mgmt = { s.dev.mgmt with causes := s.dev.mgmt.causes ||| 1#7, notedExpired := some c })
       ∧ (s.dev.mgmt.settings.leaseAction = .revoke → ∃ d, exec (.leaseExpiry c) s = .next (s.withDev d)
         ∧ unchangedBut [.contexts, .mgmt, .rollback, .port] s.dev d ∧ otherContexts c s.dev d ∧ portKept s.dev d
         ∧ d.ctx c = { x with leaseExpired := true, lease := stopped, state := .undoing, spoil := none }
         ∧ walkChosen { s.dev.rollback with
             list := s.dev.rollback.list ++ [{ ctx := c, inst := x.inst, outcome := .revoked }] } s.dev d
         ∧ d.mgmt = { s.dev.mgmt with causes := s.dev.mgmt.causes ||| 2#7, notedRevoked := some c }))
     ∧ (x.lease.running = false → exec (.leaseExpiry c) s = .refused .eventCannotOccur))

/-! ### Write queue and records -/

/-- The old line of a group is read: its images are the union's words in ascending order, and the BEFORE record's append
is requested, which begins, at the head, behind a PAD or behind a skip, unless another is in hand. -/
def Obligations.OldLineReadCompletes : Prop :=
  ∀ (s : State) (g : Group) (line : Nat), s.inFlight (.read .oldLine line) line → s.notClosing →
    s.dev.engine = .oldRead g →
    let g1 := { g with images := (setWords g.union).map fun i => s.dev.dram.readWord (line + 4 * i.val) }
    let req : RecordReq := { kind := .before, ctx := g.ctx, inst := g.inst, byte1 := g.union
                             line := BitVec.ofNat 32 g.line, images := g1.images, members := g.members }
    ∃ d, exec .oldLineReadComplete s = .next (s.withDev d)
      ∧ unchangedBut [.engine, .journal, .mgmt, .port] s.dev d ∧ d.engine = .beforeRecord g1 ∧ portKept s.dev d
      ∧ d.journal = s.dev.appendAsked .writeEngine req
      ∧ d.mgmt = { s.dev.mgmt with causes := s.dev.lowCauses s.dev.journal d.journal s.dev.mgmt.causes }
      ∧ (s.dev.journal.append = none → firstAsked (s.dev.placedAppend .writeEngine req) d)

/-- A write of a record that is not its last completes: it is in the DRAM and the next is requested. A PAD's last write
takes the head to 0, and the record behind it begins with the next sequence number. -/
def Obligations.AppendGoesOn : Prop :=
  ∀ (s : State) (a : Append) (who : Appender) (w : LineWrite), s.inFlight (.write (.append who) w) w.line →
    s.notClosing → s.dev.journal.append = some a →
    (∀ x y rest, a.writes = x :: y :: rest → ∃ d, exec .appendWriteComplete s = .next (s.withDev d)
      ∧ unchangedBut [.journal, .engine, .port, .dram] s.dev d ∧ d.dram = s.dev.dram.writeLine w
      ∧ d.journal = { s.dev.journal with append := some { a with writes := y :: rest } }
      ∧ .write (.append a.who) y ∈ d.port.asked ∧ portKept s.dev d ∧ sameOutside w.line s.dev d)
    ∧ (∀ x r, a.writes = [x] → a.padLen = some r →
      let b := s.dev.recordAppend a.who a.req 0 (s.dev.journal.nextSeq + 1)
      ∃ d, exec .appendWriteComplete s = .next (s.withDev d)
      ∧ unchangedBut [.journal, .engine, .port, .mgmt, .dram] s.dev d ∧ d.dram = s.dev.dram.writeLine w
      ∧ sameOutside w.line s.dev d
      ∧ d.journal = { s.dev.journal with
          head := 0, endGap := r, nextSeq := s.dev.journal.nextSeq + 1, append := some b
          tailRec := if a.pos = s.dev.journal.liveTail
            then some { kind := .pad, ctx := none, inst := 0, seq := a.seq } else s.dev.journal.tailRec }
      ∧ d.mgmt = { s.dev.mgmt with causes := s.dev.lowCauses s.dev.journal d.journal s.dev.mgmt.causes }
      ∧ firstAsked b d ∧ portKept s.dev d)

/-- The last write of an OPEN, BEFORE, COMMIT or DONE record completes: in the journal the head goes past it, the sequence
number rises, the reservation is settled, and its identity is the tail record if it stands at the live tail; an append
that waited begins; and the changes of the record's own rule are made: behind an OPEN or COMMIT the write engine takes
up its next entry, behind a BEFORE record it requests the group's first data write, the finish of an instance requests a
pass, and the rollback engine selects. `m` is the block before the waiting cycle and the region map see the step. The
model's readings: what they see comes before the step's grant, so a WRITE that the step wakes is placed before it, where R91
takes the two in either order (log 27, DEDUCED); a release takes the entries of the context with its instance number (log
36); an anchor write issued at once, while a pass is behind a record, carries the number that follows that record's (log
38). -/
def Obligations.RecordWriteCompletes : Prop :=
  (∀ (d : Device) (a : Append),
     unchangedBut [.journal, .mgmt] d (d.recordLanded a)
     ∧ (d.recordLanded a).journal = { d.journal with
         append := none
         nextSeq := d.journal.nextSeq + 1
         head := if d.ring ≤ a.pos + (6 + a.req.images.length) then 0 else a.pos + (6 + a.req.images.length)
         reserved := d.journal.reserved - (match a.req.kind with
           | .openRec | .commit | .done => 6
           | .before => 14 * a.req.members
           | .pad => 0)
         tailRec := if a.pos = d.journal.liveTail
           then some { kind := a.req.kind, ctx := some a.req.ctx, inst := a.req.inst, seq := a.seq }
           else d.journal.tailRec })
  ∧ (∀ (e : OwnEntry) (mask : WordSet) (p : Nat),
     (e.located mask p).line = e.line ∧ (e.located mask p).ctx = e.ctx ∧ (e.located mask p).inst = e.inst
     ∧ ∀ i : Fin 8, (e.located mask p).words[i] = if mask.getLsbD i.val = true
         then some (.position (p + 6 + ((setWords mask).filter fun k => decide (k < i)).length)) else e.words[i])
  ∧ (∀ (s : State) (a : Append) (who : Appender) (w x : LineWrite), s.inFlight (.write (.append who) w) w.line →
     s.dev.journal.append = some a → a.writes = [x] → a.padLen = none →
     let c := a.req.ctx
     let landed := (s.dev.recordLanded a).journal
     let s1 : Device := { s.dev with journal := { landed with appendWaiting := none } }
     let begun : Journal := match s.dev.journal.appendWaiting with
       | none => landed
       | some (who2, req2) => s1.placedJournal who2 req2
     let found := fun (m : Device) => { s.dev with journal := begun, contexts := m.contexts }
     let taken := fun (m : Device) (rest : List QEntry) => (found m).takenUp rest
     let low := s.dev.lowCauses landed begun (s.dev.lowCauses s.dev.journal landed s.dev.mgmt.causes)
     let causes := fun (m : Device) (now : BitVec 7) => m.mgmt = { s.dev.mgmt with causes := now }
     let rose := decide (s.dev.free < (s.dev.recordLanded a).free)
     let ends := fun (kinds : List Block) (post : Device → Prop) => ∃ m,
       exec .appendWriteComplete s = .next (s.withDev (m.observe (endedByRecord a.req.kind a.req.inst rose)).settle)
       ∧ m.dram = s.dev.dram.writeLine w ∧ sameOutside w.line s.dev m ∧ m.journal.nextSeq = landed.nextSeq
       ∧ m.journal.reserved = landed.reserved ∧ m.journal.anchoredTail = s.dev.journal.anchoredTail
       ∧ (∀ who2 req2, s.dev.journal.appendWaiting = some (who2, req2) → firstAsked (s1.placedAppend who2 req2) m)
       ∧ otherContexts c s.dev m ∧ unchangedBut (kinds ++ [.contexts, .journal, .mgmt, .port, .dram]) s.dev m ∧ post m
     (a.req.kind = .openRec → ∀ i rest, s.dev.queue = .openEntry c i :: rest →
       ends [.queue, .engine, .rollback] fun m => m.queue = rest
         ∧ m.ctx c = { s.dev.ctx c with newest := some a.pos, queued := (s.dev.ctx c).queued - 1 }
         ∧ walkChosen s.dev.rollback s.dev m ∧ m.journal = taken m rest ∧ engineTook rest (found m) m
         ∧ causes m (s.dev.lowCauses begun (taken m rest) low))
     ∧ (a.req.kind = .before → ∀ g, s.dev.engine = .beforeRecord g → g.ctx = c →
       ends [.own, .engine, .rollback] fun m => m.engine = .groupData { g with remaining := g.members }
         ∧ (∀ e0 more w0, s.dev.queue = e0 :: more → e0.write? = some w0 → .write .data w0 ∈ m.port.asked)
         ∧ walkChosen s.dev.rollback s.dev m ∧ m.journal = begun ∧ m.ctx c = { s.dev.ctx c with newest := some a.pos }
         ∧ causes m low
         ∧ m.own = s.dev.own.map fun e => if e.line = g.line ∧ e.inst = g.inst then e.located g.union a.pos else e)
     ∧ (a.req.kind = .commit → ∀ i rest, s.dev.queue = .commitEntry c i :: rest →
       ends [.host, .own, .queue, .engine, .rollback] fun m => m.queue = rest
         ∧ walkChosen s.dev.rollback s.dev m ∧ engineTook rest (found m) m
         ∧ causes m (s.dev.lowCauses begun (taken m rest) low)
         ∧ m.journal = s.dev.passRequested (taken m rest)
         ∧ headerAsked (taken m rest) m ∧ anchorAsked (taken m rest) m
         ∧ m.own = s.dev.own.filter (fun e => decide (¬ (e.ctx = c ∧ e.inst = (s.dev.ctx c).inst)))
         ∧ m.ctx c = { s.dev.ctx c with
             state := .free, outcome := .committed, owned := 0, newest := none, commitWaiter := false
             lease := { (s.dev.ctx c).lease with running := false }, queued := (s.dev.ctx c).queued - 1 }
         ∧ ((s.dev.ctx c).commitWaiter = false → m.host = s.dev.host)
         ∧ ((s.dev.ctx c).commitWaiter = true → ∃ x : ContextEntry, x.state = .free ∧ x.outcome = .committed
             ∧ x.inst = (s.dev.ctx c).inst ∧ x.leaseExpired = (s.dev.ctx c).leaseExpired
             ∧ m.host = { s.dev.host with
                 mode := .idle, answer := some { code := .okay, data := [replyWord .committed x] } }))
     ∧ (a.req.kind = .done →
       ends [.own, .rollback, .part] fun m =>
         m.journal = s.dev.passRequested begun ∧ headerAsked begun m ∧ anchorAsked begun m
         ∧ m.own = s.dev.own.filter (fun e => decide (¬ (e.ctx = c ∧ e.inst = (s.dev.ctx c).inst)))
         ∧ m.ctx c = { s.dev.ctx c with
             state := .free, owned := 0, newest := none, lease := { (s.dev.ctx c).lease with running := false }
             outcome := if a.req.byte1 = 2 then .abandoned else if a.req.byte1 = 3 then .revoked else .recovered }
         ∧ walkChosen { list := s.dev.rollback.list.filter (fun e => decide (e.ctx ≠ c)), state := .idle, walk := none }
             s.dev m
         ∧ causes m low
         ∧ m.part = { s.dev.part with report := { s.dev.part.report with rolledBack :=
             if a.req.byte1 = 2 ∨ a.req.byte1 = 3 then s.dev.part.report.rolledBack
             else s.dev.part.report.rolledBack + 1 } }))

/-- A data write completes: the bytes are in the DRAM, the head entry leaves the queue and its context's count falls; the
data write of the group's next member is requested, or the engine takes up the next entry; the rollback engine
selects. The model's reading: a waiting WRITE that the departure wakes is placed before the step's grant, which can fix a
group, where R91 takes the two in either order (log 27, DEDUCED). -/
def Obligations.DataWriteCompletes : Prop :=
  ∀ (s : State) (w : LineWrite) (e : QEntry) (rest : List QEntry), s.inFlight (.write .data w) w.line →
    s.dev.queue = e :: rest → ∃ m,
    exec .dataWriteComplete s = .next (s.withDev (m.observe (endedByDeparture e)).settle)
    ∧ unchangedBut [.contexts, .queue, .engine, .journal, .mgmt, .rollback, .port, .dram] s.dev m
    ∧ m.dram = s.dev.dram.writeLine w ∧ sameOutside w.line s.dev m ∧ m.queue = rest
    ∧ (∀ c, m.ctx c = if e.ctx? = some c then { s.dev.ctx c with queued := (s.dev.ctx c).queued - 1 } else s.dev.ctx c)
    ∧ (∀ g, s.dev.engine = .groupData g → 1 < g.remaining →
        m.engine = .groupData { g with remaining := g.remaining - 1 } ∧ m.journal = s.dev.journal
        ∧ ∀ e1 more w1, rest = e1 :: more → e1.write? = some w1 → .write .data w1 ∈ m.port.asked)
    ∧ ((∀ g, s.dev.engine = .groupData g → g.remaining ≤ 1) →
        let found := { s.dev with contexts := m.contexts }
        m.journal = found.takenUp rest ∧ engineTook rest found m)
    ∧ m.mgmt = { s.dev.mgmt with causes := s.dev.lowCauses s.dev.journal m.journal s.dev.mgmt.causes }
    ∧ walkChosen s.dev.rollback s.dev m
    ∧ m.journal.reserved = s.dev.journal.reserved ∧ m.journal.nextSeq = s.dev.journal.nextSeq

/-- What a waiting cycle and a waiting APPLY see of a step: nothing where neither waits; the copy when the quiet condition
holds; the cycle is evaluated again when its condition is one that ended, and stands when it is not. Evaluated again it
keeps its wait timer, and is evaluated as one that arrives. Where one step brings the copy and the evaluation, either comes
first (a free value, log 14). An entry's departure ends the wait for queue space and the hold on the line it named; a
release that of its instance; an anchor write the wait for journal room; a record what its entry, its finish or a rise of
free space ends. -/
def Obligations.WaitingCycleSeesTheStep : Prop :=
  ∀ (d : Device) (ended : WaitCond → Bool),
    let quiet := fun (e : Device) => (∀ c, (e.ctx c).state = .free) ∧ ∀ x ∈ e.queue, ∃ w, x = .plain w
    let copied := fun (e : Device) =>
      { e with regions := { e.regions with active := e.regions.pendingTable, applyWaiting := false } }
    let copies := d.regions.applyWaiting = true ∧ quiet d
    ((∀ w, d.host.mode = .waiting w → ended w.cond = false) → ¬ copies → d.observe ended = d)
    ∧ ((∀ w, d.host.mode = .waiting w → ended w.cond = false) → copies → d.observe ended = copied d)
    ∧ (∀ w, d.host.mode = .waiting w → ended w.cond = true → ¬ copies → d.observe ended = d.evaluate w.cycle)
    ∧ (∀ w, d.host.mode = .waiting w → ended w.cond = true → copies →
        let d1 := { d with drawn := d.drawn + 1 }
        let later := d1.evaluate w.cycle
        d.observe ended = (copied d1).evaluate w.cycle
          ∨ d.observe ended = later ∧ ¬ (later.regions.applyWaiting = true ∧ quiet later)
          ∨ d.observe ended = copied later ∧ later.regions.applyWaiting = true ∧ quiet later)
    ∧ (∀ s : State, s.evaluates →
        let d0 := { s.dev with host := { s.dev.host with answer := none } }
        let order := s.dev.mgmt.settings.burstOrder
        let evaluated := fun (i : Instr) (c : Cycle) => exec i s = .next (s.withDev (d0.evaluate c).settle)
        (∀ c, evaluated (.hostRead c) (.read c order))
        ∧ (∀ c, c.data.length = c.blen.beats → evaluated (.hostWrite c) (.write c order))
        ∧ ∀ m c, (markRequest m.addr = some (.openKind, c) → evaluated (.openMark m) (.openMark c))
          ∧ (markRequest m.addr = some (.commitKind, c) → evaluated (.commitMark m) (.commitMark c)))
    ∧ (∀ w, d.host.mode = .waiting w →
        (∀ w1, (d.evaluate w.cycle).host.mode = .waiting w1 → w1.timer = w.timer)
        ∧ ∀ r, (d.evaluate w.cycle).host.mode = .reading r → r.timer = some w.timer)
    ∧ (∀ (e : QEntry) (c : WaitCond), endedByDeparture e c = true ↔
        c = .queueSpace ∨ ∃ l, c = .readAfterWrite l ∧ e.line? = some l)
    ∧ (∀ (i : Word) (c : WaitCond), endedByRelease i c = true ↔ c = .ownersRelease i)
    ∧ (∀ c : WaitCond, endedByRoom c = true ↔ c = .journalRoom)
    ∧ (∀ (kind : RecKind) (i : Word) (rose : Bool) (c : WaitCond), endedByRecord kind i rose c = true ↔
        (c = .queueSpace ∧ (kind = .openRec ∨ kind = .commit))
        ∨ (c = .ownersRelease i ∧ (kind = .commit ∨ kind = .done)) ∨ (c = .journalRoom ∧ rose = true))

/-! ### The journal's formats -/

/-- A record that the device forms, and an anchor line that it writes, read back as what they were formed from: the check
byte matches and every field stands. The check byte is the CRC-8 of the generator x^8 + x^5 + x^4 + 1: the register starts
at FFh, and what each byte combined into it, most significant bit first, leaves is the remainder of the division by the
generator. -/
def Obligations.FormatsReadBack : Prop :=
  crc8 [] = 0xFF
  ∧ (∀ (bs : List Byte) (b : Byte), ∃ q : Byte,
    ((crc8 bs ^^^ b).zeroExtend 16 <<< 8) ^^^ (crc8 (bs ++ [b])).zeroExtend 16 = timesGenerator q)
  ∧ (∀ (kind ctx byte1 : Byte) (len : Nat) (seq inst line link : Word) (images : List Word), len < 2 ^ 32 →
    let ws := recordHeader kind ctx byte1 len seq inst line link images ++ images
    recordChecks ws = true ∧ ws.length = 6 + images.length ∧ ws.drop 6 = images ∧ recKindByte ws = kind
      ∧ recCtxByte ws = ctx ∧ recByte1 ws = byte1 ∧ recLength ws = len ∧ recSeq ws = seq ∧ recInst ws = inst
      ∧ recLine ws = line ∧ recLink ws = link)
  ∧ ∀ (d : Device) (tail : Nat) (seq inst : Word), tail < d.ring → d.ring < 2 ^ 32 →
    let ws := anchorWords d.ring tail seq inst
    ws.length = 8 ∧ ws.getD 0 0 = 0x5A3C0A17 ∧ (d.setCondition ws).journal = { d.journal with
      cond := .valid, head := tail, liveTail := tail, anchoredTail := tail, nextSeq := seq, nextInst := inst }

/-- A record's writes are those of its images and then those of its header, which are one or two, each group one write a
ring line in ascending order. When all are made on a DRAM in canonical form, the ring holds the header and the images
from its position on, and no byte outside them differs. -/
def Obligations.RecordLandsInTheRing : Prop :=
  ∀ (m : Memory) (st : Straps) (pos : Nat) (header images : List Word), m.wf = true → header.length = 6 →
    pos + 6 + images.length ≤ ringLength st →
    let m1 := (recordWrites st pos header images).foldl Memory.writeLine m
    recordWrites st pos header images = ringWrites st (pos + 6) images ++ ringWrites st pos header
    ∧ (ringWrites st pos header).length = (if pos % 8 ≤ 2 then 1 else 2)
    ∧ ((ringWrites st (pos + 6) images).map (·.line)).Pairwise (· < ·)
    ∧ ((ringWrites st pos header).map (·.line)).Pairwise (· < ·)
    ∧ (∀ w ∈ recordWrites st pos header images, w.words ≠ [] ∧ ∀ x ∈ w.words, x.lanes = 15)
    ∧ (∀ k, k < 6 + images.length → m1.readWord (ringAddr st (pos + k)) = (header ++ images).getD k 0)
    ∧ ∀ a, a < ringAddr st pos ∨ ringAddr st (pos + 6 + images.length) ≤ a → m1.read a = m.read a

/-! ### Rollback, retirement, the anchor line -/

/-- A walk: more of the record in hand is requested until its header and images are read; a BEFORE record is restored; at
the OPEN record the DONE append is requested, or in HOLDING the engine halts. A restoring write takes the walk to the
previous link. -/
def Obligations.WalkRestoresRecords : Prop :=
  (∀ (s : State) (w : Walk) (line : Nat), s.inFlight (.read .walk line) line → s.notClosing →
    s.dev.rollback.state = .read → s.dev.rollback.walk = some w →
    let ws := w.words ++ (s.dev.dram.readLine line).drop ((w.pos + w.words.length) % 8)
    let kind := (ws.getD 0 0).extractLsb' 24 8
    let len := (ws.getD 1 0).toNat
    let done : RecordReq := { kind := .done, ctx := w.ctx, inst := w.inst, byte1 := BitVec.ofNat 8 w.outcome.code
                              line := 0, images := [], members := 0 }
    (ws.length < 6 ∨ (kind = 2 ∧ ws.length < len) → ∃ d,
      exec .rollbackRecordReadComplete s = .next (s.withDev d) ∧ unchangedBut [.rollback, .engine, .port] s.dev d
      ∧ d.rollback = { s.dev.rollback with walk := some { w with words := ws } }
      ∧ .read .walk (ringLine s.dev.part.straps (w.pos + ws.length)) ∈ d.port.asked)
    ∧ (6 ≤ ws.length → kind = 2 → len ≤ ws.length → ∃ d,
      exec .rollbackRecordReadComplete s = .next (s.withDev d) ∧ unchangedBut [.rollback, .engine, .port] s.dev d
      ∧ d.rollback = { s.dev.rollback with state := .restore, walk := some { w with words := ws.take len } }
      ∧ .write .restore
          { line := ((ws.take len).getD 4 0).toNat
            words := ((setWords (((ws.take len).getD 0 0).extractLsb' 8 8)).zip ((ws.take len).drop 6)).map
              fun p => { pos := p.1, lanes := 15, data := p.2 } } ∈ d.port.asked)
    ∧ (6 ≤ ws.length → kind = 1 → s.dev.part.state ≠ .holding → ∃ d,
      exec .rollbackRecordReadComplete s = .next (s.withDev d)
      ∧ unchangedBut [.rollback, .journal, .mgmt, .engine, .port] s.dev d
      ∧ d.rollback = { s.dev.rollback with state := .close, walk := some { w with words := ws } }
      ∧ d.journal = s.dev.appendAsked .rollbackEngine done
      ∧ d.mgmt = { s.dev.mgmt with causes := s.dev.lowCauses s.dev.journal d.journal s.dev.mgmt.causes }
      ∧ (s.dev.journal.append = none → firstAsked (s.dev.placedAppend .rollbackEngine done) d))
    ∧ (6 ≤ ws.length → kind = 1 → s.dev.part.state = .holding → ∃ d,
      exec .rollbackRecordReadComplete s = .next (s.withDev d) ∧ unchangedBut [.rollback, .engine, .port] s.dev d
      ∧ d.rollback = { s.dev.rollback with state := .halted, walk := some { w with words := ws } }))
  ∧ (∀ (s : State) (w : Walk) (x : LineWrite), s.inFlight (.write .restore x) x.line → s.notClosing →
    s.dev.rollback.state = .restore → s.dev.rollback.walk = some w →
    let pos := (w.words.getD 5 0).toNat
    ∃ d, exec .restoreWriteComplete s = .next (s.withDev d)
      ∧ unchangedBut [.rollback, .engine, .port, .dram] s.dev d ∧ d.dram = s.dev.dram.writeLine x
      ∧ sameOutside x.line s.dev d
      ∧ d.rollback = { s.dev.rollback with
          state := if s.dev.part.state = .holding then .halted else .read
          walk := some { w with pos := pos, words := [] } }
      ∧ (s.dev.part.state ≠ .holding → .read .walk (ringLine s.dev.part.straps pos) ∈ d.port.asked))

/-- A header of a retirement pass is read: its second line is requested where it needs one, in HOLDING too (log 18,
DEDUCED). An unfinished record stops the pass and becomes the tail record; a finished one, a PAD, one of a FREE context or
of an instance that its context no longer holds, is passed, and the pass goes on to the next header, behind the ring end
where none fits, or stops at the head; in HOLDING it stops, and the tail record stands as it was (log 19, DEDUCED). A stop raises the debt and calls for an anchor write as the pass's reclaim or the
setting says; a further pass that is flagged begins, and a start that waited for the pass closes. A header read left
behind by a FORMAT is ignored. An anchor write issued while the pass is behind a record carries the number that follows
that record's (log 38, DEDUCED). -/
def Obligations.HeaderReadCompletes : Prop :=
  ∀ (s : State) (line : Nat), s.inFlight (.read .header line) line →
    let j := s.dev.journal
    let again := fun (j1 : Journal) =>
      if j1.pass = none ∧ j1.passAgain = true then
        s.dev.begunPass { j1 with passAgain := false } j1.liveTail none
      else j1
    let asked := fun (d : Device) =>
      (d.journal.pass ≠ none → .read .header (ringLine s.dev.part.straps d.journal.liveTail) ∈ d.port.asked)
      ∧ anchorAsked j d
    let ends := fun (post : Device → Prop) => ∃ d, exec .headerReadComplete s = .next (s.withDev d)
      ∧ unchangedBut [.journal, .engine, .port] s.dev d ∧ post d
    (j.pass = none → ends fun d => d.journal = s.dev.closed j ∧ anchorAsked j d)
    ∧ ∀ p, j.pass = some p →
      let ws := p.words ++ (s.dev.dram.readLine line).drop ((j.liveTail + p.words.length) % 8)
      (ws.length < 4 → ends fun d => d.journal = { j with pass := some { p with words := ws } }
        ∧ .read .header (ringLine s.dev.part.straps (j.liveTail + ws.length)) ∈ d.port.asked)
      ∧ ∀ t, 4 ≤ ws.length → headerNames ws t →
        let next := if t.kind = .pad then 0 else ringAdvance s.dev.ring j.liveTail (ws.getD 1 0).toNat
        (¬ recordFinished s.dev t → ends fun d =>
          d.journal = s.dev.closed (again (s.dev.stoppedPass j p.start j.liveTail (some t)))
          ∧ (j.passAgain = false ∨ (j.liveTail ≠ j.head ∧ 6 ≤ s.dev.ring - j.liveTail) → asked d))
        ∧ (recordFinished s.dev t → s.dev.part.state ≠ .holding → ends fun d =>
            d.journal = s.dev.closed (again (s.dev.begunPass { j with liveTail := next } p.start (some (t.seq + 1))))
            ∧ asked d)
        ∧ (recordFinished s.dev t → s.dev.part.state = .holding → ends fun d =>
            d.journal = s.dev.stoppedPass { j with liveTail := next } p.start next
              (if next = j.head then none else j.tailRec))

/-- An anchor write completes: the anchored tail is the one it carried, the debt is 0, the end gap clears when the tail
has passed the ring end, cycles waiting for room are evaluated again, and a start's closing write takes the part to
RUNNING. Else a FORMAT that waited issues its write; a forced request that waited is satisfied where the write carried
the live tail, and issued where not; a forced request satisfied ends its reclaim, and a further reclaim begins. The
model's readings: cycles are evaluated again before the step's grant, so a WRITE that the step wakes is placed before it,
where R91 takes the two in either order (log 27, DEDUCED); a reclaim that begins over a running pass flags a further pass
(log 16); a write issued while a pass is behind a record carries the number that follows that record's (log 38). -/
def Obligations.AnchorWriteCompletes : Prop :=
  ∀ (s : State) (forced : Bool) (x : LineWrite) (w : AnchorWrite),
    s.inFlight (.write (.anchor forced) x) x.line → s.dev.journal.anchor = some w → w.why ≠ .format →
    let j := { s.dev.journal with
      anchoredTail := w.tail, debt := 0, anchor := none
      endGap := if w.tail < s.dev.journal.anchoredTail then 0 else s.dev.journal.endGap }
    let ends := fun (kinds : List Block) (post : Device → Prop) => ∃ m,
      exec .anchorWriteComplete s = .next (s.withDev (m.observe endedByRoom).settle)
      ∧ unchangedBut (kinds ++ [.journal, .port, .dram]) s.dev m ∧ m.dram = s.dev.dram.writeLine x
      ∧ sameOutside x.line s.dev m ∧ m.port = { s.dev.port with inFlight := none, waiting := m.port.waiting }
      ∧ (m.journal.pass = j.pass → m.journal.anchor = none → m.port.waiting = s.dev.port.waiting) ∧ post m
    let satisfied := fun (j1 : Journal) =>
      if j.reclaimAgain then s.dev.reclaimRequested { j1 with reclaim := .idle, reclaimAgain := false }
      else { j1 with reclaim := .idle }
    let starting := w.why = .closing ∧ s.dev.part.state = .starting
    (¬ starting → j.formatting = true → ends [] fun m =>
      m.journal = { j with anchor := some { tail := 0, why := .format } }
      ∧ .write (.anchor true) (s.dev.anchorLine 0 j.nextSeq 1) ∈ m.port.asked)
    ∧ (¬ starting → j.formatting = false → j.forcedPending = true → ends [] fun m =>
      let j1 := { j with forcedPending := false }
      m.journal = (if w.tail = j.liveTail then satisfied j1
        else { j1 with anchor := some { tail := j.liveTail, why := .forced } })
      ∧ headerAsked j m ∧ anchorAsked j m)
    ∧ (¬ starting → j.formatting = false → j.forcedPending = false → ends [] fun m =>
      m.journal = (if w.why = .forced then satisfied j else j) ∧ headerAsked j m ∧ anchorAsked j m)
    ∧ (w.why = .closing → s.dev.part.state = .starting → ends [.part, .mgmt] fun m => m.journal = j
        ∧ m.part = { s.dev.part with
            state := .running, phase := none, report := { s.dev.part.report with complete := true } }
        ∧ m.readyLine = true ∧ m.port = { s.dev.port with inFlight := none }
        ∧ m.mgmt = { s.dev.mgmt with causes :=
            if j.cond = .valid ∧ m.free < ((s.dev.mgmt.settings.lowWater * s.dev.ring / 16 : Nat) : Int) then (s.dev.mgmt.causes ||| 8#7) ||| 4#7
            else s.dev.mgmt.causes ||| 8#7 })

/-- A FORMAT's anchor write completes: the pointers, the counts and the tail record are as in an empty ring, the next
sequence number stands, and the condition is VALID; waiting cycles are evaluated again. That this comes before the step's
grant, so that a WRITE woken is placed before it, is the model's reading (log 27, DEDUCED): R91 takes the two in either
order. -/
def Obligations.FormatCompletes : Prop :=
  ∀ (s : State) (forced : Bool) (x : LineWrite) (w : AnchorWrite),
    s.inFlight (.write (.anchor forced) x) x.line → s.dev.journal.anchor = some w → w.why = .format → ∃ m,
      exec .anchorWriteComplete s = .next (s.withDev (m.observe endedByRoom).settle)
      ∧ unchangedBut [.journal, .port, .dram] s.dev m ∧ m.dram = s.dev.dram.writeLine x ∧ sameOutside x.line s.dev m
      ∧ m.port = { s.dev.port with inFlight := none }
      ∧ m.journal = { s.dev.journal with
          head := 0, liveTail := 0, anchoredTail := 0, reserved := 0, nextInst := 1, debt := 0, endGap := 0
          tailRec := none, cond := .valid, formatting := false, anchor := none }
      ∧ m.used = 0 ∧ m.free = (s.dev.ring : Int) - 14

/-! ### Memory port -/

/-- The refresh timer's expiry raises the owed count, or at 5 raises REFRESH_OVERRUN; a refresh's completion lowers it
and closes every bank, and in ENTERING stops the timer. The model's choice (log 9): the expiry of a stopped timer, and
the completion of a refresh that is not in flight, are refused. -/
def Obligations.RefreshesAreOwed : Prop :=
  ∀ s : State, s.dev.port.owed ≤ 5 →
    let p := s.dev.port
    (p.timer.running = true → exec .refreshTimerExpiry s = .next (s.withDev (Device.settle { s.dev with
      port := { p with
        timer := { running := true, interval := s.dev.mgmt.settings.refreshPeriod, elapsed := 0 }
        owed := if p.owed = 5 then 5 else p.owed + 1 }
      mgmt := { s.dev.mgmt with causes := if p.owed = 5 then s.dev.mgmt.causes ||| 32#7 else s.dev.mgmt.causes } })))
    ∧ (p.timer.running = false → exec .refreshTimerExpiry s = .refused .eventCannotOccur)
    ∧ (p.inFlight = some .refresh → exec .refreshComplete s = .next (s.withDev (Device.settle { s.dev with
        port := { p with
          inFlight := none, owed := p.owed - 1, banks := Vector.replicate 8 none
          timer := if p.state = .entering then { p.timer with running := false } else p.timer } })))
    ∧ (p.inFlight ≠ some .refresh → exec .refreshComplete s = .refused .eventCannotOccur)

/-- A grant moment: in ACTIVE with no access in flight the request of the lowest rank number is granted and its bank
opened; in every other state, and with nothing requested, nothing is granted. The ranks are those of the nine
requests. -/
def Obligations.ArbiterGrantsByRank : Prop :=
  (∀ (owed line : Nat) (w : LineWrite),
    rank owed .refresh = (if 3 ≤ owed then 1 else 9) ∧ rank owed (.write (.anchor true) w) = 2
    ∧ rank owed (.read .host line) = 3
    ∧ rank owed (.read .oldLine line) = 4 ∧ rank owed (.write .data w) = 4
    ∧ rank owed (.write (.append .writeEngine) w) = 4
    ∧ rank owed (.read .walk line) = 5 ∧ rank owed (.write .restore w) = 5
    ∧ rank owed (.write (.append .rollbackEngine) w) = 5
    ∧ rank owed (.read .anchor line) = 6 ∧ rank owed (.read .scan line) = 6
    ∧ rank owed (.read .header line) = 7 ∧ rank owed (.write (.anchor false) w) = 8)
  ∧ ∀ d : Device,
    let asked := if 0 < d.port.owed then Access.refresh :: d.port.waiting else d.port.waiting
    (d.port.state ≠ .active ∨ d.port.inFlight ≠ none ∨ asked = [] → d.grant = d)
    ∧ (d.port.state = .active → d.port.inFlight = none → asked ≠ [] → ∃ a ∈ asked,
        (∀ b ∈ asked, rank d.port.owed a ≤ rank d.port.owed b)
        ∧ unchangedBut [.engine, .port] d d.grant
        ∧ d.grant.port = { d.port with
            waiting := d.port.waiting.erase a, inFlight := some a
            banks := match a.line? with
              | some l => d.port.banks.set (l / 2048 % 8) (some (l / 16384)) (Nat.mod_lt _ (by decide))
              | none => d.port.banks }
        ∧ (∀ g, d.engine = .gather g → d.grant.engine =
            match a with
            | .read .oldLine _ => .oldRead g
            | _ => .gather g)
        ∧ ((∀ g, d.engine ≠ .gather g) → d.grant.engine = d.engine))

/-- Self-refresh entry is asked for at the end of a command when in HOLDING every block is idle and nothing but a refresh is
requested or in flight, and the banks are closed when nothing is. When it is complete the part is HELD while a hold cause is
present, and else a RESTART begins at once. Bring-up or the exit completes: the port is ACTIVE and reads the anchor line, or
under a hold cause the part is in HOLDING. -/
def Obligations.SelfRefreshAndBringUp : Prop :=
  let idle := fun (d : Device) => d.host.mode = .idle ∧ d.queue = [] ∧ d.engine = .idle
    ∧ (d.rollback.state = .idle ∨ d.rollback.state = .halted) ∧ d.journal.append = none ∧ d.journal.appendWaiting = none
    ∧ d.journal.pass = none ∧ d.journal.anchor = none ∧ d.port.waiting = []
  (∀ d : Device, d.port.state = .active →
    let ready := d.part.state = .holding ∧ idle d ∧ (d.port.inFlight = none ∨ d.port.inFlight = some .refresh)
    let p := { d.port with state := .entering }
    (ready → d.settle = { d with port := if d.port.inFlight = none
      then { p with banks := Vector.replicate 8 none, timer := { p.timer with running := false } } else p })
    ∧ (¬ ready → d.settle.port.state = .active))
  ∧ (∀ (s : State) (st : Straps), s.dev.port.state = .entering → s.dev.port.inFlight = none →
    let d := { s.dev with port := { s.dev.port with state := .selfRefresh }
                          part := { s.dev.part with state := .held } }
    (s.dev.part.pfwarn = true ∨ s.dev.part.holdFlag = true →
      exec (.selfRefreshEntryComplete st) s = .next (s.withDev d) ∧ d.heldLine = true ∧ d.selfRefreshFlag = true)
    ∧ (s.dev.part.pfwarn = false → s.dev.part.holdFlag = false → ∃ e,
      exec (.selfRefreshEntryComplete st) s = .next (s.withDev e) ∧ startBegun .restart st d e))
  ∧ ∀ (s : State) (i : Instr), s.dev.part.state = .starting → s.dev.part.phase = some .bringUp →
    i = .selfRefreshExitComplete ∧ s.dev.port.state = .exiting ∨ i = .bringUpComplete ∧ s.dev.port.state = .bringingUp →
    let p := { s.dev.port with
      state := .active, banks := Vector.replicate 8 none, owed := 0
      timer := { running := true, interval := s.dev.mgmt.settings.refreshPeriod, elapsed := 0 } }
    (s.dev.part.pfwarn = false → s.dev.part.holdFlag = false → exec i s = .next (s.withDev (Device.grant { s.dev with
      port := { p with waiting := p.waiting ++ [.read .anchor (journalBase s.dev.part.straps)] }
      part := { s.dev.part with broughtUp := true, phase := some .anchor } })))
    ∧ (s.dev.part.pfwarn = true ∨ s.dev.part.holdFlag = true → idle s.dev → s.dev.port.inFlight = none → ∃ d,
        exec i s = .next (s.withDev d)
          ∧ unchangedBut [.contexts, .journal, .port, .part] s.dev d
          ∧ d.part = { s.dev.part with broughtUp := true, state := .holding, scan := none }
          ∧ d.port = { p with state := .entering, timer := { p.timer with running := false } })

/-! ### Starts, holds and resets -/

/-- The anchor line is read in ANCHOR: BLANK and DAMAGED end the start, VALID sets the pointers and begins the scan at
the anchored tail, behind the ring end where no header fits before it. In HOLDING what is read is discarded. -/
def Obligations.AnchorLineRead : Prop :=
  (∀ (s : State) (line : Nat), s.inFlight (.read .anchor line) line → s.dev.part.state = .holding →
    exec .anchorReadComplete s = .next (s.withDev (Device.settle
      { s.dev with port := { s.dev.port with inFlight := none } })))
  ∧ ∀ (s : State) (line : Nat), s.inFlight (.read .anchor line) line → s.dev.part.state = .starting →
    s.dev.part.phase = some .anchor →
    let ws := s.dev.dram.readLine line
    let good := (ws.getD 7 0).extractLsb' 0 8 = crc8 ((ws.take 7).flatMap wordBytes)
    let ended := fun (cond : JournalCondition) (raised : BitVec 7) => ∃ d,
      exec .anchorReadComplete s = .next (s.withDev d) ∧ unchangedBut [.journal, .part, .mgmt, .engine, .port] s.dev d
      ∧ d.journal = { s.dev.journal with cond := cond }
      ∧ d.part = { s.dev.part with
          state := .running, phase := none, report := { s.dev.part.report with cond := cond, complete := true } }
      ∧ d.mgmt = { s.dev.mgmt with causes := s.dev.mgmt.causes ||| raised }
    (ws.getD 0 0 ≠ 0x5A3C0A17 → ended .blank 8#7)
    ∧ (ws.getD 0 0 = 0x5A3C0A17 →
        ¬ good ∨ (ws.getD 1 0).toNat ≠ s.dev.ring ∨ s.dev.ring ≤ (ws.getD 2 0).toNat → ended .damaged 24#7)
    ∧ (ws.getD 0 0 = 0x5A3C0A17 → good → (ws.getD 1 0).toNat = s.dev.ring → (ws.getD 2 0).toNat < s.dev.ring →
        let tail := (ws.getD 2 0).toNat
        ∃ d sc, exec .anchorReadComplete s = .next (s.withDev d)
          ∧ unchangedBut [.journal, .part, .engine, .port] s.dev d
          ∧ d.journal = { s.dev.journal with
              cond := .valid, head := tail, liveTail := tail, anchoredTail := tail, nextSeq := ws.getD 3 0
              nextInst := ws.getD 4 0 }
          ∧ d.part = { s.dev.part with
              phase := some .scan, scan := some sc, report := { s.dev.part.report with cond := .valid } }
          ∧ sc.expected = ws.getD 3 0 ∧ sc.taken = 0 ∧ sc.length = 0 ∧ sc.order = []
          ∧ (6 ≤ s.dev.ring - tail → sc.pos = tail ∧ sc.gap = 0)
          ∧ (s.dev.ring - tail < 6 → sc.pos = 0 ∧ sc.gap = s.dev.ring - tail)
          ∧ .read .scan (ringLine s.dev.part.straps sc.pos) ∈ d.port.asked)

/-- A ring line of the scan is read. The scanner goes on until it needs another line, which it requests; or it stops at
the first record that fails a test, in the order of the tests, and its findings are taken: the journal controller's, the
contexts, the rollback list and the report, with the selection, and the closing anchor write where nothing is listed. A
record that passes every test is taken, and tracked by its kind. In HOLDING what is read is discarded. A record that
does not check good or is not the one expected, as a cut append leaves it, stops the scan. The model's readings: the words
are read as the tests need them, word 0 for the kind, word 1 for the length, then the rest, and the moves of one line in
hand are bounded by 64 (log 20, DEDUCED); a PAD of any length to the ring end passes test 2 (log 29). -/
def Obligations.ScanLineRead : Prop :=
  (∀ (s : State) (line : Nat), s.inFlight (.read .scan line) line → s.dev.part.state = .holding →
    exec .scanLineReadComplete s = .next (s.withDev (Device.settle
      { s.dev with port := { s.dev.port with inFlight := none } })))
  ∧ (∀ (s : State) (line : Nat) (sc : Scan), s.inFlight (.read .scan line) line → s.dev.part.state = .starting →
     s.dev.part.scan = some sc → s.dev.part.phase = some .scan →
     let move := Scan.run s.dev.part.straps { sc with lineInHand := some (line, s.dev.dram.readLine line) } 64
     (∀ s1 l, move = .read s1 l → ∃ d, exec .scanLineReadComplete s = .next (s.withDev d)
       ∧ unchangedBut [.part, .engine, .port] s.dev d ∧ d.part = { s.dev.part with scan := some s1 }
       ∧ .read .scan (ringLine s.dev.part.straps (s1.pos + s1.words.length)) ∈ d.port.asked)
     ∧ (∀ s1 why, move = .stop s1 why → ∃ d, exec .scanLineReadComplete s = .next (s.withDev d)
       ∧ unchangedBut [.part, .contexts, .journal, .rollback, .engine, .port] s.dev d
       ∧ d.part = { s.dev.part with
           phase := some .undo, scan := none
           report := { s.dev.part.report with
             reason := why, stopPos := s1.pos, scanned := s1.taken, found := s1.order.length } }
       ∧ (let anchored := s.dev.journal.nextInst
          let j := { s.dev.journal with
            head := s1.pos, nextSeq := s1.expected, reserved := 6 * s1.order.length, endGap := s1.gap, debt := 0
            tailRec := if s.dev.journal.liveTail = s1.pos then none else s1.first
            nextInst := match s1.highest with
              | none => anchored
              | some h => if (h - anchored).toNat < 2 ^ 31 then h + 1 else anchored }
          d.journal = (if s1.order = [] ∧ j.pass = none ∧ j.passAgain = false ∧ j.anchor = none
            then { j with anchor := some { tail := j.liveTail, why := .closing } } else j))
       ∧ anchorAsked s.dev.journal d
       ∧ d.rollback.list.map (·.ctx) = s1.order ∧ (∀ e ∈ d.rollback.list, e.outcome = .recovered)
       ∧ (∀ e ∈ d.rollback.list, ∀ o, s1.openInst[e.ctx] = some o → e.inst = o.inst)
       ∧ walkChosen { s.dev.rollback with list := d.rollback.list } s.dev d
       ∧ ∀ c : Ctx,
           (∀ o, s1.openInst[c] = some o → (d.ctx c).state = .undoing ∧ (d.ctx c).inst = o.inst
             ∧ (d.ctx c).newest = some o.lastSeen ∧ (d.ctx c).owned = 0 ∧ (d.ctx c).queued = 0)
           ∧ (∀ n, s1.openInst[c] = none → s1.closed[c] = some n →
             d.ctx c = { s.dev.ctx c with inst := n.inst, outcome := n.outcome })
           ∧ (s1.openInst[c] = none → s1.closed[c] = none → d.ctx c = s.dev.ctx c)))
  ∧ (∀ (st : Straps) (sc : Scan), sc.run st 0 = .read sc (ringLine st sc.pos)
     ∧ ∀ n, (∀ t, sc.move st = .on t → sc.run st (n + 1) = t.run st n)
       ∧ (∀ t l, sc.move st = .read t l → sc.run st (n + 1) = .read t l)
       ∧ ∀ t why, sc.move st = .stop t why → sc.run st (n + 1) = .stop t why)
  ∧ (∀ (st : Straps) (sc : Scan) (n : Nat), scanNeeds st sc n →
     let p := sc.pos + sc.words.length
     ((∀ l ws, sc.lineInHand = some (l, ws) → l ≠ ringLine st p) → sc.move st = .read sc (ringLine st p))
     ∧ ∀ ws, sc.lineInHand = some (ringLine st p, ws) → ws.length = 8 →
       sc.move st = Scan.move st { sc with words := sc.words ++ (ws.drop (p % 8)).take (n - sc.words.length) })
  ∧ (∀ (st : Straps) (sc : Scan), ringLength st - sc.pos < 6 →
     sc.move st = .on { sc with gap := ringLength st - sc.pos, pos := 0, words := [] })
  ∧ (∀ (st : Straps) (sc : Scan), 6 ≤ ringLength st - sc.pos → 1 ≤ sc.words.length →
     (recKindByte sc.words = 0 ∨ 6 ≤ (recKindByte sc.words).toNat) → sc.move st = .stop sc .kind)
  ∧ (∀ (st : Straps) (sc : Scan) (k : RecKind), 6 ≤ ringLength st - sc.pos → 2 ≤ sc.words.length →
     kindCoded k (recKindByte sc.words) → ∀ test, (.length, test) ∈ scanTests st sc k sc.words → ¬ test →
     sc.move st = .stop sc .length)
  ∧ (∀ (st : Straps) (sc : Scan) (k : RecKind), 6 ≤ ringLength st - sc.pos → 2 ≤ sc.words.length →
     kindCoded k (recKindByte sc.words) → (if k = .pad then 6 else recLength sc.words) ≤ sc.words.length →
     let tests := scanTests st sc k sc.words
     (∀ before why test after, tests = before ++ (why, test) :: after → (∀ x ∈ before, x.2) → ¬ test →
       sc.move st = .stop sc why)
     ∧ ((∀ x ∈ tests, x.2) → ∃ t, sc.move st = .on t ∧ scanTakes st sc k sc.words t))
  ∧ (∀ (m : Memory) (st : Straps) (sc : Scan) (k : RecKind), m.recordStands st sc.pos sc.expected = false →
     6 ≤ ringLength st - sc.pos → kindOfCode (recKindByte sc.words) = some k → 6 ≤ sc.words.length →
     sc.words.length = wordsToScan k sc.words →
     (∀ i, i < sc.words.length → sc.words[i]? = some (m.readWord (ringAddr st (sc.pos + i)))) →
     ∃ why, sc.move st = .stop sc why)

/-- PFWARN asserted and HOLD make the part enter HOLDING from RUNNING and from ANCHOR, SCAN and UNDO. In BRINGUP, HOLDING
and HELD a cause is only noted, and PFWARN in STOPPED too. In HELD, PFWARN negated and RELEASE begin a RESTART when they
take the last cause away, and else only clear theirs. The model's readings at the entry to HOLDING: an anchor write that
is requested and not granted stands (log 17), a header half read goes on (log 18), a pass whose header read is withdrawn
raises the debt if it moved the tail and leaves the tail record (log 19); and a level that stands already changes nothing
(log 31). -/
def Obligations.HoldCausesAct : Prop :=
  let enters := fun (s : State) =>
    s.dev.part.state = .running ∨ (s.dev.part.state = .starting ∧ s.dev.part.phase ≠ some .bringUp)
  (∀ s : State, enters s → s.dev.part.pfwarn = false → ∃ d,
    exec .pfwarnAsserted s = .next (s.withDev d)
    ∧ unchangedBut [.host, .contexts, .rollback, .journal, .port, .part, .engine] s.dev d
    ∧ holdingEntered { s.dev.part with pfwarn := true } s.dev d)
  ∧ (∀ (s : State) (f : Frame), enters s → s.takes f → f.row = .hold → frameArrives f 1 → ∃ d,
    exec (.holdCommand f) s = .next (s.withDev d)
    ∧ unchangedBut [.host, .contexts, .rollback, .journal, .port, .part, .engine, .mgmt] s.dev d
    ∧ holdingEntered { s.dev.part with holdFlag := true } s.dev d ∧ d.mgmt = (s.dev.endFrame f s.dev .ok).mgmt)
  ∧ (∀ s : State, SettledInv s → (s.dev.part.state = .starting ∧ s.dev.part.phase = some .bringUp)
      ∨ s.dev.part.state = .holding ∨ s.dev.part.state = .held ∨ s.dev.part.state = .stopped →
    exec .pfwarnAsserted s = .next (s.withDev { s.dev with part := { s.dev.part with pfwarn := true } }))
  ∧ (∀ s : State, SettledInv s → s.dev.part.pfwarn = true → exec .pfwarnAsserted s = .next s)
  ∧ (∀ (s : State) (f : Frame), SettledInv s → s.takes f →
    s.dev.part.state = .holding ∨ s.dev.part.state = .held
      ∨ (s.dev.part.state = .starting ∧ s.dev.part.phase = some .bringUp) →
    f.row = .hold → frameArrives f 1 →
    exec (.holdCommand f) s = .next (s.withDev
      ({ s.dev with part := { s.dev.part with holdFlag := true } }.endFrame f s.dev .ok)))
  ∧ (∀ (s : State) (st : Straps), s.dev.part.state = .held → s.dev.part.holdFlag = false →
    s.dev.port.state = .selfRefresh → ∃ d, exec (.pfwarnNegated st) s = .next (s.withDev d)
    ∧ startBegun .restart st { s.dev with part := { s.dev.part with pfwarn := false } } d)
  ∧ (∀ (s : State) (st : Straps), SettledInv s → s.dev.part.state ≠ .held ∨ s.dev.part.holdFlag = true →
    exec (.pfwarnNegated st) s = .next (s.withDev { s.dev with part := { s.dev.part with pfwarn := false } }))
  ∧ (∀ (s : State) (f : Frame) (st : Straps), s.takes f → f.row = .release → frameArrives f 1 →
    (s.dev.part.state = .held → s.dev.part.pfwarn = false → s.dev.port.state = .selfRefresh → ∃ d,
      exec (.releaseCommand f st) s = .next (s.withDev (d.endFrame f s.dev .ok))
      ∧ startBegun .restart st { s.dev with part := { s.dev.part with holdFlag := false } } d)
    ∧ (SettledInv s → s.dev.part.state ≠ .held ∨ s.dev.part.pfwarn = true →
      exec (.releaseCommand f st) s = .next (s.withDev
        ({ s.dev with part := { s.dev.part with holdFlag := false } }.endFrame f s.dev .ok))))

/-- RST stops every block at once and cuts the access in flight, whose bytes in a DRAM of canonical form are each old or
new, the cycle and the frame in progress. A record whose write is cut does not stand complete at its position, and an anchor
line is as before, or as written, or does not check good: the free values give way to any mix of old and new bytes that
leaves it so (log 34, DEDUCED). The release of RST begins a start of kind RST, or POWER_ON before the first
BRINGUP. The model's readings: the tables, the queue, the journal controller's registers and the rollback list stand until that
start (log 24), and a level that stands already changes nothing (log 31). -/
def Obligations.ResetLine : Prop :=
  (∀ s : State, s.dev.part.rst = false → ∃ d, exec .rstAsserted s = .next (s.withDev d)
    ∧ unchangedBut [.host, .contexts, .engine, .rollback, .port, .part, .mgmt, .dram, .drawn] s.dev d
    ∧ d.part = { s.dev.part with rst := true, state := .stopped, phase := none, scan := none }
    ∧ d.host = { s.dev.host with mode := .stopped, answer := none } ∧ d.engine = .stopped
    ∧ d.rollback = { s.dev.rollback with state := .stopped, walk := none }
    ∧ d.mgmt = { s.dev.mgmt with frame := .stopped, current := none } ∧ d.alertLine = false ∧ d.readyLine = false
    ∧ (∀ c, d.ctx c = s.dev.stoppedContext c)
    ∧ d.port = { s.dev.port with
        state := if s.dev.port.state = .bringingUp ∨ s.dev.port.state = .unconfigured then .unconfigured
                 else .selfRefresh
        banks := Vector.replicate 8 none, waiting := [], inFlight := none
        timer := { s.dev.port.timer with running := false } }
    ∧ ((∀ u w, s.dev.port.inFlight ≠ some (.write u w)) → d.dram = s.dev.dram)
    ∧ (∀ u w, MemoryInv s → s.dev.port.inFlight = some (.write u w) → ∀ a, d.dram.read a = s.dev.dram.read a
        ∨ ∃ b ∈ w.bytes, a = w.line + b.1 ∧ d.dram.read a = b.2)
    ∧ (∀ who w a, MemoryInv s → s.dev.port.inFlight = some (.write (.append who) w) → s.dev.journal.append = some a →
        (w.bytes.map (·.1)).Nodup →
        let st := s.dev.part.straps
        (∃ takes, (s.dev.dram.writeBytes w.line takes w.bytes).recordStands st a.pos a.seq = false) →
        d.dram.recordStands st a.pos a.seq = false)
    ∧ (∀ forced w, s.dev.port.inFlight = some (.write (.anchor forced) w) →
        let ws := d.dram.readLine w.line
        ws = s.dev.dram.readLine w.line ∨ ws = (s.dev.dram.writeLine w).readLine w.line
          ∨ ¬ (ws.getD 0 0 = 0x5A3C0A17 ∧ (ws.getD 7 0).extractLsb' 0 8 = crc8 ((ws.take 7).flatMap wordBytes)
              ∧ (ws.getD 1 0).toNat = s.dev.ring ∧ (ws.getD 2 0).toNat < s.dev.ring)))
  ∧ (∀ s : State, s.dev.part.rst = true → exec .rstAsserted s = .next s)
  ∧ (∀ (s : State) (st : Straps),
    let d := { s.dev with part := { s.dev.part with rst := false } }
    (s.dev.part.rst = true → s.dev.part.powered = true → ∃ e, exec (.rstReleased st) s = .next (s.withDev e)
      ∧ startBegun (if s.dev.part.broughtUp then .rst else .powerOn) st d e)
    ∧ (s.dev.part.rst = true → s.dev.part.powered = false → exec (.rstReleased st) s = .next (s.withDev d))
    ∧ (s.dev.part.rst = false → exec (.rstReleased st) s = .next s))

/-- Power-on completes once and begins a start of kind POWER_ON unless RST is asserted. A loss of power leaves the machine
as when power comes; in SELF_REFRESH the DRAM is kept. The model's choices: a second completion is refused (log 9), the
lines keep their levels over the loss (log 3), the blocks hold the values of the first start before it (log 5), and
where the DRAM was not in self-refresh one more free value is drawn at least (log 13). -/
def Obligations.PowerComesAndGoes : Prop :=
  (∀ (s : State) (st : Straps),
    let d := { s.dev with part := { s.dev.part with powered := true } }
    (s.dev.part.powered = true → exec (.powerOnComplete st) s = .refused .eventCannotOccur)
    ∧ (s.dev.part.powered = false → s.dev.part.rst = true → exec (.powerOnComplete st) s = .next (s.withDev d))
    ∧ (s.dev.part.powered = false → s.dev.part.rst = false → ∃ e,
        exec (.powerOnComplete st) s = .next (s.withDev e) ∧ startBegun .powerOn st d e))
  ∧ (∀ s : State, ∃ m n, exec .powerLoss s =
      .next (s.withDev (Device.unstarted m s.dev.part.rst s.dev.part.pfwarn n))
    ∧ (s.dev.port.state = .selfRefresh → m = s.dev.dram ∧ n = s.dev.drawn)
    ∧ (s.dev.port.state ≠ .selfRefresh → s.dev.drawn < n))

/-! ### Management port and alerts -/

/-- A READ frame shifts out the previous result, two zeros, each item's value as its item bytes found it and the CRC
byte, has no effect but its result, and its result follows the order of its tests; a frame cut before its command byte
is complete is SHORT. The end of any frame stores its result, whose code the next frame shifts out, and makes the port
IDLE. The item and its value decide the row of a frame. A frame in progress only moves the frame state and MDO, and a READ's second item byte takes the
snapshot. While the part is STOPPED no frame is taken. The model's choices: a frame may come in several commands (log
11), bytes that do not go on with those taken cannot arrive (log 9), the row of a WRITE that names no other row's item is
SETTING_WRITE (log 26), and the bits of a frame that no frame in progress goes before are a whole frame, those of one
whose MSS stood through STOPPED included (log 39). The items of a READ that begins at FFFDh or above do not wrap past
FFFFh, so the words shifted out for the numbers past it are 0 (log 25, DEDUCED). -/
def Obligations.FramesRead : Prop :=
  let values := fun (s : State) (f : Frame) (w : Nat) => match s.dev.mgmt.current.bind (·.snapshot) with
    | some taken => taken
    | none => (List.range w).map fun k => s.dev.readItem (f.item + k)
  let shifted := fun (s : State) (f : Frame) => s.dev.mgmt.lastResult.code :: match f.words with
    | none => []
    | some w =>
      if f.isWrite = true ∨ f.bytes.length < 3 then []
      else
        let data := (values s f w).flatMap fun v => wordBytes (v.getD 0)
        [0, 0] ++ data ++ (if f.hasCrc then [crc8 (f.bytes.take 3 ++ data)] else [])
  let driven := fun (s : State) (f : Frame) (m : Management) =>
    m.mdo = ((List.range f.bytes.length).map fun k => (shifted s f).getD k 0)
    ∧ m.mdoBits = (List.range f.extraBits.val).map fun k => ((shifted s f).getD f.bytes.length 0).getLsbD (7 - k)
  (∀ (s : State) (f : Frame), f.row = .read → f.ended = true → s.takes f → FrameInv s →
    ∃ (d : Device) (r : FrameResult),
    exec (.managementReadFrame f) s = .next (s.withDev d) ∧ unchangedBut [.mgmt] s.dev d
    ∧ d.mgmt = { s.dev.mgmt with
        frame := .idle, current := none, lastResult := r, mdo := d.mgmt.mdo, mdoBits := d.mgmt.mdoBits }
    ∧ driven s f d.mgmt
    ∧ (f.words = none → r = .length)
    ∧ ∀ w, f.words = some w →
      (f.tooShort w = true → r = .short)
      ∧ (f.tooShort w = false → f.tooLong w = true → r = .length)
      ∧ (f.tooShort w = false → f.tooLong w = false → none ∈ values s f w → r = .badItem)
      ∧ (f.tooShort w = false → f.tooLong w = false → none ∉ values s f w → r = .ok))
  ∧ (∀ (i : Instr) (s : State) (f : Frame), frameCarried i = some f → f.ended = false → s.takes f → FrameInv s → ∃ d,
    exec i s = .next (s.withDev d) ∧ unchangedBut [.mgmt] s.dev d ∧ driven s f d.mgmt
    ∧ d.mgmt = { s.dev.mgmt with
        frame := framePhase f, mdo := d.mgmt.mdo, mdoBits := d.mgmt.mdoBits
        current := some { bytes := f.bytes
                          snapshot := if f.isWrite = true ∨ f.bytes.length < 3 then none
                                      else f.words.map (values s f) } })
  ∧ (∀ f : Frame, (f.bytes.length = 0 → framePhase f = .command)
    ∧ (1 ≤ f.bytes.length → f.bytes.length ≤ 2 → framePhase f = .item)
    ∧ (3 ≤ f.bytes.length → f.words = none → framePhase f = .data)
    ∧ ∀ w, 3 ≤ f.bytes.length → f.words = some w →
      (f.bytes.length < 3 + 4 * w → framePhase f = .data)
      ∧ (3 + 4 * w ≤ f.bytes.length → f.bytes.length < f.declared w → framePhase f = .check)
      ∧ (f.declared w ≤ f.bytes.length → framePhase f = .excess))
  ∧ (∀ (s : State) (bits : Fin 8), s.takes { bytes := [], extraBits := bits, ended := true } → ∃ d,
    exec (.frameEndsBeforeCommandByte bits) s = .next (s.withDev d) ∧ unchangedBut [.mgmt] s.dev d
    ∧ d.mgmt = { s.dev.mgmt with
        frame := .idle, current := none, lastResult := .short, mdo := []
        mdoBits := (List.range bits.val).map fun k => s.dev.mgmt.lastResult.code.getLsbD (7 - k) })
  ∧ (∀ (i : Instr) (s : State) (f : Frame), frameCarried i = some f → s.dev.part.state ≠ .stopped →
    s.dev.continues f = false → exec i s = .refused .eventCannotOccur)
  ∧ (∀ s : State, s.dev.part.state = .stopped →
    (∀ bits, exec (.frameEndsBeforeCommandByte bits) s = .next s)
    ∧ ∀ i f, frameCarried i = some f → exec i s = .next s)
  ∧ (∀ (s : State) (f : Frame) (e : Device) (r : FrameResult), s.takes f → FrameInv s →
    let m := (e.endFrame f s.dev r).mgmt
    unchangedBut [.mgmt] e (e.endFrame f s.dev r) ∧ driven s f m
    ∧ m = { e.mgmt with frame := .idle, current := none, lastResult := r, mdo := m.mdo, mdoBits := m.mdoBits })
  ∧ [FrameResult.ok, .crcMismatch, .short, .length, .badItem, .refused].map FrameResult.code = [0, 1, 2, 3, 4, 5]
  ∧ ∀ f : Frame, frameRows f

/-- A WRITE frame that fails a test changes nothing but the frame result, and for the check byte the cause LINK_CRC; the
first test that fails decides: fewer bytes than declared, more bits than declared, the check byte, an item that is not
written or a value that it does not take. The command byte, the item number, the data, the declared length and the check
byte of any frame lie as the layout gives. -/
def Obligations.WriteFramesDiscarded : Prop :=
  (∀ f : Frame, frameLayout f)
  ∧ ∀ (s : State) (i : Instr) (f : Frame), frameWritten i = some f → s.takes f → SettledInv s →
    let discarded := fun r => exec i s = .next (s.withDev (s.dev.endFrame f s.dev r))
    (f.words = none → discarded .length)
    ∧ ∀ w, f.words = some w →
      (f.tooShort w = true → discarded .short)
      ∧ (f.tooShort w = false → f.tooLong w = true → discarded .length)
      ∧ (f.tooShort w = false → f.tooLong w = false → f.crcGood w = false →
          exec i s = .next (s.withDev (Device.endFrame
            { s.dev with mgmt := { s.dev.mgmt with causes := s.dev.mgmt.causes ||| 64#7 } } f s.dev .crcMismatch)))
      ∧ (frameArrives f w → (∃ k, k < w ∧ ¬ itemTakes (f.item + k) (f.word k).toNat) → discarded .badItem)

/-- FORMAT is refused outside RUNNING, during a FORMAT, with a context in use or a journalled entry queued; else it is
taken: BLANK, the pass and the reclaim ended, and the anchor write for tail 0 issued or left for the one in flight. That
the anchor debt stands, even where the pass had moved the live tail, is the model's reading (log 37). -/
def Obligations.FormatTaken : Prop :=
  ∀ (s : State) (f : Frame), s.takes f → SettledInv s → f.row = .format → frameArrives f 1 →
    let allowed := s.dev.part.state = .running ∧ s.dev.journal.formatting = false
      ∧ (∀ c, (s.dev.ctx c).state = .free) ∧ ∀ e ∈ s.dev.queue, ∃ w, e = .plain w
    (¬ allowed → exec (.formatCommand f) s = .next (s.withDev (s.dev.endFrame f s.dev .refused)))
    ∧ (allowed → ∃ d, exec (.formatCommand f) s = .next (s.withDev d)
      ∧ unchangedBut [.journal, .port, .mgmt] s.dev d ∧ d.mgmt = (s.dev.endFrame f s.dev .ok).mgmt
      ∧ d.journal = { s.dev.journal with
          cond := .blank, pass := none, passAgain := false, reclaim := .idle, reclaimAgain := false
          forcedPending := false, formatting := true
          anchor := match s.dev.journal.anchor with
            | none => some { tail := 0, why := .format }
            | some w => some w }
      ∧ (s.dev.journal.anchor = none → ∃ x, .write (.anchor true) x ∈ d.port.asked
          ∧ x.line = journalBase s.dev.part.straps
          ∧ x.words.map (·.data) = anchorWords s.dev.ring 0 s.dev.journal.nextSeq 1)
      ∧ ∀ l, Access.read .header l ∉ d.port.waiting)

/-- A write of the causes item clears the causes named, one of the mask stores it, and ALERT follows at once; a write of
settings items stores each. Every item reads as the field of the block that it names, in its bits, with the codes of the
spec, and no other number names an item. -/
def Obligations.AlertsAndSettingsWritten : Prop :=
  (∀ (s : State) (f : Frame), s.takes f → SettledInv s →
    let m := s.dev.mgmt
    let taken := fun (i : Instr) (m1 : Management) =>
      exec i s = .next (s.withDev (({ s.dev with mgmt := m1 } : Device).endFrame f s.dev .ok))
      ∧ (({ s.dev with mgmt := m1 } : Device).endFrame f s.dev .ok).alertLine = decide (m1.causes &&& m1.mask ≠ 0)
    (f.row = .causesClear → frameArrives f 1 →
      taken (.alertCausesClear f) { m with causes := m.causes &&& ~~~ (f.word 0).extractLsb' 0 7 })
    ∧ (f.row = .causesClear → frameArrives f 2 →
      taken (.alertCausesClear f) { m with causes := m.causes &&& ~~~ (f.word 0).extractLsb' 0 7
                                           mask := (f.word 1).extractLsb' 0 7 })
    ∧ (f.row = .maskWrite → frameArrives f 1 →
      taken (.alertMaskWrite f) { m with mask := (f.word 0).extractLsb' 0 7 })
    ∧ ∀ w, f.row = .setting → frameArrives f w → 0x50 ≤ f.item → f.item + w ≤ 0x57 →
      (∀ k, k < w → (settingRange (f.item + k - 0x50)).1 ≤ (f.word k).toNat
        ∧ (f.word k).toNat ≤ (settingRange (f.item + k - 0x50)).2) →
      ∃ x : Settings, exec (.settingWrite f) s = .next (s.withDev
          (({ s.dev with mgmt := { m with settings := x } } : Device).endFrame f s.dev .ok))
        ∧ ∀ n, n < 7 → (∀ k, k < w → n = f.item + k - 0x50 → x.item n = (f.word k).toNat)
          ∧ ((∀ k, k < w → n ≠ f.item + k - 0x50) → x.item n = m.settings.item n))
  ∧ (∀ d : Device, itemValues d) ∧ statusCodes
  ∧ settingRange 0 = (0, 1) ∧ settingRange 1 = (1, 1023) ∧ settingRange 2 = (1, 65535) ∧ settingRange 3 = (0, 1)
  ∧ settingRange 4 = (0, 6) ∧ settingRange 5 = (1, 15) ∧ settingRange 6 = (4, 31)
end

