-- ==== Sys2Proof/Laws/State.lean ====
section
/-! SUPPORT. One lemma per field for each plain update of the device, so that no proof unfolds a record update. -/

namespace Sys2Proof.Machine

@[simp] theorem State.withDev_dev (s : State) (d : Device) : (s.withDev d).dev = d := rfl
@[simp] theorem State.withDev_pending (s : State) (d : Device) : (s.withDev d).pending = s.pending := rfl
@[simp] theorem State.onDevice_next (s : State) (d : Device) : s.onDevice (.next d) = .next (s.withDev d) := rfl
@[simp] theorem State.onDevice_fault (s : State) (f : Fault) : s.onDevice (.fault f) = .fault f := rfl
@[simp] theorem State.onDevice_refused (s : State) (f : Refusal) : s.onDevice (.refused f) = .refused f := rfl
@[simp] theorem State.answered_pending (s : State) (code : Rsp) (ws : List Word) :
    (s.answered code ws).pending = s.pending := rfl

@[simp] theorem Device.answer_regions (d : Device) (code : Rsp) (ws : List Word) : (d.answer code ws).regions = d.regions := rfl
@[simp] theorem Device.answer_contexts (d : Device) (code : Rsp) (ws : List Word) : (d.answer code ws).contexts = d.contexts := rfl
@[simp] theorem Device.answer_own (d : Device) (code : Rsp) (ws : List Word) : (d.answer code ws).own = d.own := rfl
@[simp] theorem Device.answer_queue (d : Device) (code : Rsp) (ws : List Word) : (d.answer code ws).queue = d.queue := rfl
@[simp] theorem Device.answer_engine (d : Device) (code : Rsp) (ws : List Word) : (d.answer code ws).engine = d.engine := rfl
@[simp] theorem Device.answer_journal (d : Device) (code : Rsp) (ws : List Word) : (d.answer code ws).journal = d.journal := rfl
@[simp] theorem Device.answer_rollback (d : Device) (code : Rsp) (ws : List Word) : (d.answer code ws).rollback = d.rollback := rfl
@[simp] theorem Device.answer_port (d : Device) (code : Rsp) (ws : List Word) : (d.answer code ws).port = d.port := rfl
@[simp] theorem Device.answer_part (d : Device) (code : Rsp) (ws : List Word) : (d.answer code ws).part = d.part := rfl
@[simp] theorem Device.answer_mgmt (d : Device) (code : Rsp) (ws : List Word) : (d.answer code ws).mgmt = d.mgmt := rfl
@[simp] theorem Device.answer_dram (d : Device) (code : Rsp) (ws : List Word) : (d.answer code ws).dram = d.dram := rfl
@[simp] theorem Device.answer_drawn (d : Device) (code : Rsp) (ws : List Word) : (d.answer code ws).drawn = d.drawn := rfl

@[simp] theorem Device.modifyCtx_host (d : Device) (c : Ctx) (f : ContextEntry → ContextEntry) : (d.modifyCtx c f).host = d.host := rfl
@[simp] theorem Device.modifyCtx_regions (d : Device) (c : Ctx) (f : ContextEntry → ContextEntry) : (d.modifyCtx c f).regions = d.regions := rfl
@[simp] theorem Device.modifyCtx_own (d : Device) (c : Ctx) (f : ContextEntry → ContextEntry) : (d.modifyCtx c f).own = d.own := rfl
@[simp] theorem Device.modifyCtx_queue (d : Device) (c : Ctx) (f : ContextEntry → ContextEntry) : (d.modifyCtx c f).queue = d.queue := rfl
@[simp] theorem Device.modifyCtx_engine (d : Device) (c : Ctx) (f : ContextEntry → ContextEntry) : (d.modifyCtx c f).engine = d.engine := rfl
@[simp] theorem Device.modifyCtx_journal (d : Device) (c : Ctx) (f : ContextEntry → ContextEntry) : (d.modifyCtx c f).journal = d.journal := rfl
@[simp] theorem Device.modifyCtx_rollback (d : Device) (c : Ctx) (f : ContextEntry → ContextEntry) : (d.modifyCtx c f).rollback = d.rollback := rfl
@[simp] theorem Device.modifyCtx_port (d : Device) (c : Ctx) (f : ContextEntry → ContextEntry) : (d.modifyCtx c f).port = d.port := rfl
@[simp] theorem Device.modifyCtx_part (d : Device) (c : Ctx) (f : ContextEntry → ContextEntry) : (d.modifyCtx c f).part = d.part := rfl
@[simp] theorem Device.modifyCtx_mgmt (d : Device) (c : Ctx) (f : ContextEntry → ContextEntry) : (d.modifyCtx c f).mgmt = d.mgmt := rfl
@[simp] theorem Device.modifyCtx_dram (d : Device) (c : Ctx) (f : ContextEntry → ContextEntry) : (d.modifyCtx c f).dram = d.dram := rfl
@[simp] theorem Device.modifyCtx_drawn (d : Device) (c : Ctx) (f : ContextEntry → ContextEntry) : (d.modifyCtx c f).drawn = d.drawn := rfl

@[simp] theorem Device.request_host (d : Device) (a : Access) : (d.request a).host = d.host := rfl
@[simp] theorem Device.request_regions (d : Device) (a : Access) : (d.request a).regions = d.regions := rfl
@[simp] theorem Device.request_contexts (d : Device) (a : Access) : (d.request a).contexts = d.contexts := rfl
@[simp] theorem Device.request_own (d : Device) (a : Access) : (d.request a).own = d.own := rfl
@[simp] theorem Device.request_queue (d : Device) (a : Access) : (d.request a).queue = d.queue := rfl
@[simp] theorem Device.request_engine (d : Device) (a : Access) : (d.request a).engine = d.engine := rfl
@[simp] theorem Device.request_journal (d : Device) (a : Access) : (d.request a).journal = d.journal := rfl
@[simp] theorem Device.request_rollback (d : Device) (a : Access) : (d.request a).rollback = d.rollback := rfl
@[simp] theorem Device.request_part (d : Device) (a : Access) : (d.request a).part = d.part := rfl
@[simp] theorem Device.request_mgmt (d : Device) (a : Access) : (d.request a).mgmt = d.mgmt := rfl
@[simp] theorem Device.request_dram (d : Device) (a : Access) : (d.request a).dram = d.dram := rfl
@[simp] theorem Device.request_drawn (d : Device) (a : Access) : (d.request a).drawn = d.drawn := rfl

@[simp] theorem Device.withdraw_host (d : Device) (p : Access → Bool) : (d.withdraw p).host = d.host := rfl
@[simp] theorem Device.withdraw_regions (d : Device) (p : Access → Bool) : (d.withdraw p).regions = d.regions := rfl
@[simp] theorem Device.withdraw_contexts (d : Device) (p : Access → Bool) : (d.withdraw p).contexts = d.contexts := rfl
@[simp] theorem Device.withdraw_own (d : Device) (p : Access → Bool) : (d.withdraw p).own = d.own := rfl
@[simp] theorem Device.withdraw_queue (d : Device) (p : Access → Bool) : (d.withdraw p).queue = d.queue := rfl
@[simp] theorem Device.withdraw_engine (d : Device) (p : Access → Bool) : (d.withdraw p).engine = d.engine := rfl
@[simp] theorem Device.withdraw_journal (d : Device) (p : Access → Bool) : (d.withdraw p).journal = d.journal := rfl
@[simp] theorem Device.withdraw_rollback (d : Device) (p : Access → Bool) : (d.withdraw p).rollback = d.rollback := rfl
@[simp] theorem Device.withdraw_part (d : Device) (p : Access → Bool) : (d.withdraw p).part = d.part := rfl
@[simp] theorem Device.withdraw_mgmt (d : Device) (p : Access → Bool) : (d.withdraw p).mgmt = d.mgmt := rfl
@[simp] theorem Device.withdraw_dram (d : Device) (p : Access → Bool) : (d.withdraw p).dram = d.dram := rfl
@[simp] theorem Device.withdraw_drawn (d : Device) (p : Access → Bool) : (d.withdraw p).drawn = d.drawn := rfl

@[simp] theorem Device.raise_host (d : Device) (c : Cause) : (d.raise c).host = d.host := rfl
@[simp] theorem Device.raise_regions (d : Device) (c : Cause) : (d.raise c).regions = d.regions := rfl
@[simp] theorem Device.raise_contexts (d : Device) (c : Cause) : (d.raise c).contexts = d.contexts := rfl
@[simp] theorem Device.raise_own (d : Device) (c : Cause) : (d.raise c).own = d.own := rfl
@[simp] theorem Device.raise_queue (d : Device) (c : Cause) : (d.raise c).queue = d.queue := rfl
@[simp] theorem Device.raise_engine (d : Device) (c : Cause) : (d.raise c).engine = d.engine := rfl
@[simp] theorem Device.raise_journal (d : Device) (c : Cause) : (d.raise c).journal = d.journal := rfl
@[simp] theorem Device.raise_rollback (d : Device) (c : Cause) : (d.raise c).rollback = d.rollback := rfl
@[simp] theorem Device.raise_port (d : Device) (c : Cause) : (d.raise c).port = d.port := rfl
@[simp] theorem Device.raise_part (d : Device) (c : Cause) : (d.raise c).part = d.part := rfl
@[simp] theorem Device.raise_dram (d : Device) (c : Cause) : (d.raise c).dram = d.dram := rfl
@[simp] theorem Device.raise_drawn (d : Device) (c : Cause) : (d.raise c).drawn = d.drawn := rfl

@[simp] theorem Device.landed_host (d : Device) : (d.landed).host = d.host := rfl
@[simp] theorem Device.landed_regions (d : Device) : (d.landed).regions = d.regions := rfl
@[simp] theorem Device.landed_contexts (d : Device) : (d.landed).contexts = d.contexts := rfl
@[simp] theorem Device.landed_own (d : Device) : (d.landed).own = d.own := rfl
@[simp] theorem Device.landed_queue (d : Device) : (d.landed).queue = d.queue := rfl
@[simp] theorem Device.landed_engine (d : Device) : (d.landed).engine = d.engine := rfl
@[simp] theorem Device.landed_journal (d : Device) : (d.landed).journal = d.journal := rfl
@[simp] theorem Device.landed_rollback (d : Device) : (d.landed).rollback = d.rollback := rfl
@[simp] theorem Device.landed_part (d : Device) : (d.landed).part = d.part := rfl
@[simp] theorem Device.landed_mgmt (d : Device) : (d.landed).mgmt = d.mgmt := rfl
@[simp] theorem Device.landed_dram (d : Device) : (d.landed).dram = d.dram := rfl
@[simp] theorem Device.landed_drawn (d : Device) : (d.landed).drawn = d.drawn := rfl

@[simp] theorem Device.stopLeases_host (d : Device) : (d.stopLeases).host = d.host := rfl
@[simp] theorem Device.stopLeases_regions (d : Device) : (d.stopLeases).regions = d.regions := rfl
@[simp] theorem Device.stopLeases_own (d : Device) : (d.stopLeases).own = d.own := rfl
@[simp] theorem Device.stopLeases_queue (d : Device) : (d.stopLeases).queue = d.queue := rfl
@[simp] theorem Device.stopLeases_engine (d : Device) : (d.stopLeases).engine = d.engine := rfl
@[simp] theorem Device.stopLeases_journal (d : Device) : (d.stopLeases).journal = d.journal := rfl
@[simp] theorem Device.stopLeases_rollback (d : Device) : (d.stopLeases).rollback = d.rollback := rfl
@[simp] theorem Device.stopLeases_port (d : Device) : (d.stopLeases).port = d.port := rfl
@[simp] theorem Device.stopLeases_part (d : Device) : (d.stopLeases).part = d.part := rfl
@[simp] theorem Device.stopLeases_mgmt (d : Device) : (d.stopLeases).mgmt = d.mgmt := rfl
@[simp] theorem Device.stopLeases_dram (d : Device) : (d.stopLeases).dram = d.dram := rfl
@[simp] theorem Device.stopLeases_drawn (d : Device) : (d.stopLeases).drawn = d.drawn := rfl

@[simp] theorem Device.applyCopy_host (d : Device) : (d.applyCopy).host = d.host := rfl
@[simp] theorem Device.applyCopy_contexts (d : Device) : (d.applyCopy).contexts = d.contexts := rfl
@[simp] theorem Device.applyCopy_own (d : Device) : (d.applyCopy).own = d.own := rfl
@[simp] theorem Device.applyCopy_queue (d : Device) : (d.applyCopy).queue = d.queue := rfl
@[simp] theorem Device.applyCopy_engine (d : Device) : (d.applyCopy).engine = d.engine := rfl
@[simp] theorem Device.applyCopy_journal (d : Device) : (d.applyCopy).journal = d.journal := rfl
@[simp] theorem Device.applyCopy_rollback (d : Device) : (d.applyCopy).rollback = d.rollback := rfl
@[simp] theorem Device.applyCopy_port (d : Device) : (d.applyCopy).port = d.port := rfl
@[simp] theorem Device.applyCopy_part (d : Device) : (d.applyCopy).part = d.part := rfl
@[simp] theorem Device.applyCopy_mgmt (d : Device) : (d.applyCopy).mgmt = d.mgmt := rfl
@[simp] theorem Device.applyCopy_dram (d : Device) : (d.applyCopy).dram = d.dram := rfl
@[simp] theorem Device.applyCopy_drawn (d : Device) : (d.applyCopy).drawn = d.drawn := rfl

@[simp] theorem Device.frameGoesOn_host (d : Device) (f : Frame) : (d.frameGoesOn f).host = d.host := rfl
@[simp] theorem Device.frameGoesOn_regions (d : Device) (f : Frame) : (d.frameGoesOn f).regions = d.regions := rfl
@[simp] theorem Device.frameGoesOn_contexts (d : Device) (f : Frame) : (d.frameGoesOn f).contexts = d.contexts := rfl
@[simp] theorem Device.frameGoesOn_own (d : Device) (f : Frame) : (d.frameGoesOn f).own = d.own := rfl
@[simp] theorem Device.frameGoesOn_queue (d : Device) (f : Frame) : (d.frameGoesOn f).queue = d.queue := rfl
@[simp] theorem Device.frameGoesOn_engine (d : Device) (f : Frame) : (d.frameGoesOn f).engine = d.engine := rfl
@[simp] theorem Device.frameGoesOn_journal (d : Device) (f : Frame) : (d.frameGoesOn f).journal = d.journal := rfl
@[simp] theorem Device.frameGoesOn_rollback (d : Device) (f : Frame) : (d.frameGoesOn f).rollback = d.rollback := rfl
@[simp] theorem Device.frameGoesOn_port (d : Device) (f : Frame) : (d.frameGoesOn f).port = d.port := rfl
@[simp] theorem Device.frameGoesOn_part (d : Device) (f : Frame) : (d.frameGoesOn f).part = d.part := rfl
@[simp] theorem Device.frameGoesOn_dram (d : Device) (f : Frame) : (d.frameGoesOn f).dram = d.dram := rfl
@[simp] theorem Device.frameGoesOn_drawn (d : Device) (f : Frame) : (d.frameGoesOn f).drawn = d.drawn := rfl
@[simp] theorem Device.frameGoesOn_settings (d : Device) (f : Frame) :
    (d.frameGoesOn f).mgmt.settings = d.mgmt.settings := rfl
@[simp] theorem Device.frameGoesOn_frame (d : Device) (f : Frame) : (d.frameGoesOn f).mgmt.frame = framePhase f := rfl

@[simp] theorem Device.endFrame_host (d : Device) (f : Frame) (e : Device) (r : FrameResult) :
    (d.endFrame f e r).host = d.host := rfl
@[simp] theorem Device.endFrame_regions (d : Device) (f : Frame) (e : Device) (r : FrameResult) :
    (d.endFrame f e r).regions = d.regions := rfl
@[simp] theorem Device.endFrame_contexts (d : Device) (f : Frame) (e : Device) (r : FrameResult) :
    (d.endFrame f e r).contexts = d.contexts := rfl
@[simp] theorem Device.endFrame_own (d : Device) (f : Frame) (e : Device) (r : FrameResult) :
    (d.endFrame f e r).own = d.own := rfl
@[simp] theorem Device.endFrame_queue (d : Device) (f : Frame) (e : Device) (r : FrameResult) :
    (d.endFrame f e r).queue = d.queue := rfl
@[simp] theorem Device.endFrame_engine (d : Device) (f : Frame) (e : Device) (r : FrameResult) :
    (d.endFrame f e r).engine = d.engine := rfl
@[simp] theorem Device.endFrame_journal (d : Device) (f : Frame) (e : Device) (r : FrameResult) :
    (d.endFrame f e r).journal = d.journal := rfl
@[simp] theorem Device.endFrame_rollback (d : Device) (f : Frame) (e : Device) (r : FrameResult) :
    (d.endFrame f e r).rollback = d.rollback := rfl
@[simp] theorem Device.endFrame_port (d : Device) (f : Frame) (e : Device) (r : FrameResult) :
    (d.endFrame f e r).port = d.port := rfl
@[simp] theorem Device.endFrame_part (d : Device) (f : Frame) (e : Device) (r : FrameResult) :
    (d.endFrame f e r).part = d.part := rfl
@[simp] theorem Device.endFrame_dram (d : Device) (f : Frame) (e : Device) (r : FrameResult) :
    (d.endFrame f e r).dram = d.dram := rfl
@[simp] theorem Device.endFrame_drawn (d : Device) (f : Frame) (e : Device) (r : FrameResult) :
    (d.endFrame f e r).drawn = d.drawn := rfl
@[simp] theorem Device.endFrame_settings (d : Device) (f : Frame) (e : Device) (r : FrameResult) :
    (d.endFrame f e r).mgmt.settings = d.mgmt.settings := rfl
@[simp] theorem Device.endFrame_current (d : Device) (f : Frame) (e : Device) (r : FrameResult) :
    (d.endFrame f e r).mgmt.current = none := rfl
@[simp] theorem Device.endFrame_lastResult (d : Device) (f : Frame) (e : Device) (r : FrameResult) :
    (d.endFrame f e r).mgmt.lastResult = r := rfl

@[simp] theorem Device.answer_mode (d : Device) (code : Rsp) (ws : List Word) : (d.answer code ws).host.mode = .idle :=
  rfl
@[simp] theorem Device.answer_answer (d : Device) (code : Rsp) (ws : List Word) :
    (d.answer code ws).host.answer = some { code := code, data := ws } := rfl
@[simp] theorem Device.answer_refusal (d : Device) (code : Rsp) (ws : List Word) :
    (d.answer code ws).host.refusal = d.host.refusal := rfl
@[simp] theorem Device.request_inFlight (d : Device) (a : Access) : (d.request a).port.inFlight = d.port.inFlight := rfl
@[simp] theorem Device.request_waiting (d : Device) (a : Access) :
    (d.request a).port.waiting = d.port.waiting ++ [a] := rfl
@[simp] theorem Device.request_state (d : Device) (a : Access) : (d.request a).port.state = d.port.state := rfl
@[simp] theorem Device.request_owed (d : Device) (a : Access) : (d.request a).port.owed = d.port.owed := rfl
@[simp] theorem Device.withdraw_inFlight (d : Device) (p : Access → Bool) :
    (d.withdraw p).port.inFlight = d.port.inFlight := rfl
@[simp] theorem Device.withdraw_owed (d : Device) (p : Access → Bool) : (d.withdraw p).port.owed = d.port.owed := rfl
@[simp] theorem Device.landed_inFlight (d : Device) : d.landed.port.inFlight = none := rfl
@[simp] theorem Device.landed_owed (d : Device) : d.landed.port.owed = d.port.owed := rfl
@[simp] theorem Device.raise_settings (d : Device) (c : Cause) : (d.raise c).mgmt.settings = d.mgmt.settings := rfl
@[simp] theorem Device.raise_causes (d : Device) (c : Cause) :
    (d.raise c).mgmt.causes = d.mgmt.causes ||| (1#7 <<< c.bit) := rfl

/-- The entry changed by `modifyCtx`. -/
@[simp] theorem Device.ctx_modifyCtx (d : Device) (c : Ctx) (f : ContextEntry → ContextEntry) :
    (d.modifyCtx c f).ctx c = f (d.ctx c) := by
  simp [Device.ctx, Device.modifyCtx]

/-- Every other entry stands. -/
theorem Device.ctx_modifyCtx_ne (d : Device) (c x : Ctx) (f : ContextEntry → ContextEntry) (h : x ≠ c) :
    (d.modifyCtx c f).ctx x = d.ctx x := by
  have : c.val ≠ x.val := fun e => h (Fin.ext e.symm)
  simp [Device.ctx, Device.modifyCtx, this]

end Sys2Proof.Machine
end

