-- ==== Sys2Proof/Laws/Frames.lean ====
section
/-! SUPPORT. The frame of each shared operation: the blocks it may change, said once. -/

namespace Sys2Proof.Machine

/-! ### Frames compose -/

theorem sameBlock.rfl' (b : Block) (d : Device) : sameBlock b d d := by cases b <;> rfl

theorem sameBlock.trans {b : Block} {d e f : Device} (h : sameBlock b d e) (k : sameBlock b e f) :
    sameBlock b d f := by
  cases b <;> exact Eq.trans k h

theorem unchangedBut.refl (l : List Block) (d : Device) : unchangedBut l d d := fun b _ => sameBlock.rfl' b d

/-- Two changes one after the other, within the blocks of both. -/
theorem unchangedBut.trans {l : List Block} {d e f : Device} (h : unchangedBut l d e) (k : unchangedBut l e f) :
    unchangedBut l d f := fun b hb => (h b hb).trans (k b hb)

theorem unchangedBut.mono {l m : List Block} {d e : Device} (h : unchangedBut l d e)
    (hs : ∀ b ∈ l, b ∈ m) : unchangedBut m d e := fun b hb => h b fun hl => hb (hs b hl)

/-- A change within `l` and then one within `m`, both among the blocks `n`. -/
theorem unchangedBut.comp {l m n : List Block} {d e f : Device} (h : unchangedBut l d e) (k : unchangedBut m e f)
    (hl : ∀ b ∈ l, b ∈ n) (hm : ∀ b ∈ m, b ∈ n) : unchangedBut n d f := (h.mono hl).trans (k.mono hm)

/-! ### Ops and Flags -/

theorem modifyCtx_frame (d : Device) (c : Ctx) (f : ContextEntry → ContextEntry) :
    unchangedBut [.contexts] d (d.modifyCtx c f) := by
  intro b hb; cases b <;> first | rfl | exact absurd (by decide) hb

theorem request_frame (d : Device) (a : Access) : unchangedBut [.port] d (d.request a) := by
  intro b hb; cases b <;> first | rfl | exact absurd (by decide) hb

theorem withdraw_frame (d : Device) (p : Access → Bool) : unchangedBut [.port] d (d.withdraw p) := by
  intro b hb; cases b <;> first | rfl | exact absurd (by decide) hb

theorem landed_frame (d : Device) : unchangedBut [.port] d d.landed := by
  intro b hb; cases b <;> first | rfl | exact absurd (by decide) hb

theorem granted_frame (d : Device) (a : Access) : unchangedBut [.engine, .port] d (d.granted a) := by
  intro b hb; cases b <;> first | rfl | exact absurd (by decide) hb

theorem grant_frame (d : Device) : unchangedBut [.engine, .port] d d.grant := by
  unfold Device.grant
  split
  · split
    · exact .refl _ _
    · exact granted_frame _ _
  · exact .refl _ _

theorem tick_frame (d : Device) : unchangedBut [.contexts, .host, .port] d d.tick := by
  intro b hb; cases b <;> first | rfl | exact absurd (by decide) hb

theorem raise_frame (d : Device) (c : Cause) : unchangedBut [.mgmt] d (d.raise c) := by
  intro b hb; cases b <;> first | rfl | exact absurd (by decide) hb

theorem noteFree_frame (d : Device) (n : Int) : unchangedBut [.mgmt] d (d.noteFree n) := by
  unfold Device.noteFree
  split
  · exact raise_frame _ _
  · exact .refl _ _

/-- A change of the journal controller alone. -/
theorem journal_frame (d : Device) (j : Journal) : unchangedBut [.journal] d { d with journal := j } := by
  intro b hb; cases b <;> first | rfl | exact absurd (by decide) hb

theorem engine_frame (d : Device) (e : Engine) : unchangedBut [.engine] d { d with engine := e } := by
  intro b hb; cases b <;> first | rfl | exact absurd (by decide) hb

theorem host_frame (d : Device) (h : HostPort) : unchangedBut [.host] d { d with host := h } := by
  intro b hb; cases b <;> first | rfl | exact absurd (by decide) hb

theorem own_frame (d : Device) (o : List OwnEntry) : unchangedBut [.own] d { d with own := o } := by
  intro b hb; cases b <;> first | rfl | exact absurd (by decide) hb

theorem queue_frame (d : Device) (q : List QEntry) : unchangedBut [.queue] d { d with queue := q } := by
  intro b hb; cases b <;> first | rfl | exact absurd (by decide) hb

theorem rollback_frame (d : Device) (r : Rollback) : unchangedBut [.rollback] d { d with rollback := r } := by
  intro b hb; cases b <;> first | rfl | exact absurd (by decide) hb

theorem part_frame (d : Device) (p : PartControl) : unchangedBut [.part] d { d with part := p } := by
  intro b hb; cases b <;> first | rfl | exact absurd (by decide) hb

theorem port_frame (d : Device) (p : MemPort) : unchangedBut [.port] d { d with port := p } := by
  intro b hb; cases b <;> first | rfl | exact absurd (by decide) hb

theorem mgmt_frame (d : Device) (m : Management) : unchangedBut [.mgmt] d { d with mgmt := m } := by
  intro b hb; cases b <;> first | rfl | exact absurd (by decide) hb

theorem regions_frame (d : Device) (r : RegionMap) : unchangedBut [.regions] d { d with regions := r } := by
  intro b hb; cases b <;> first | rfl | exact absurd (by decide) hb

theorem reserve_frame (d : Device) (n : Nat) : unchangedBut [.journal, .mgmt] d (d.reserve n) :=
  (journal_frame d _).comp (noteFree_frame _ _) (by decide) (by decide)

/-! ### Journal -/

theorem requestAppendWrite_frame (d : Device) (a : Append) : unchangedBut [.port] d (d.requestAppendWrite a) := by
  unfold Device.requestAppendWrite
  split
  · exact .refl _ _
  · exact request_frame _ _

theorem placeRecord_frame (d : Device) (w : Appender) (r : RecordReq) (p : Nat) :
    unchangedBut [.journal, .port] d (d.placeRecord w r p) :=
  (journal_frame d _).comp (requestAppendWrite_frame _ _) (by decide) (by decide)

theorem placePad_frame (d : Device) (w : Appender) (r : RecordReq) (p : Nat) :
    unchangedBut [.journal, .port] d (d.placePad w r p) :=
  (journal_frame d _).comp (requestAppendWrite_frame _ _) (by decide) (by decide)

theorem skipRingEnd_frame (d : Device) (r : Nat) : unchangedBut [.journal, .mgmt] d (d.skipRingEnd r) :=
  (journal_frame d _).comp (noteFree_frame _ _) (by decide) (by decide)

theorem beginAppend_frame (d : Device) (w : Appender) (r : RecordReq) :
    unchangedBut [.journal, .mgmt, .port] d (d.beginAppend w r) := by
  unfold Device.beginAppend
  simp only
  split
  · exact (placeRecord_frame _ _ _ _).mono (by decide)
  · split
    · exact (placePad_frame _ _ _ _).mono (by decide)
    · exact (skipRingEnd_frame d _).comp (placeRecord_frame _ _ _ _) (by decide) (by decide)

theorem requestAppend_frame (d : Device) (w : Appender) (r : RecordReq) :
    unchangedBut [.journal, .mgmt, .port] d (d.requestAppend w r) := by
  unfold Device.requestAppend
  split
  · exact beginAppend_frame _ _ _
  · exact (journal_frame d _).mono (by decide)

theorem beginWaitingAppend_frame (d : Device) : unchangedBut [.journal, .mgmt, .port] d d.beginWaitingAppend := by
  unfold Device.beginWaitingAppend
  split
  · exact .refl _ _
  · exact (journal_frame d _).comp (beginAppend_frame _ _ _) (by decide) (by decide)

theorem padComplete_frame (d : Device) (a : Append) (r : Nat) :
    unchangedBut [.journal, .mgmt, .port] d (d.padComplete a r) :=
  (((journal_frame d _).comp (noteFree_frame _ _) (by decide) (by decide) :
    unchangedBut [.journal, .mgmt] d _)).comp (placeRecord_frame _ _ _ _) (by decide) (by decide)

theorem recordLanded_frame (d : Device) (a : Append) : unchangedBut [.journal, .mgmt] d (d.recordLanded a) :=
  (journal_frame d _).comp (noteFree_frame _ _) (by decide) (by decide)

theorem issueAnchor_frame (d : Device) (w : AnchorUse) : unchangedBut [.journal, .port] d (d.issueAnchor w) :=
  (journal_frame d _).comp (request_frame _ _) (by decide) (by decide)

theorem requestForcedAnchor_frame (d : Device) : unchangedBut [.journal, .port] d d.requestForcedAnchor := by
  unfold Device.requestForcedAnchor
  split
  · exact issueAnchor_frame _ _
  · exact (journal_frame d _).mono (by decide)

theorem passStop_frame (d : Device) (p : Pass) : unchangedBut [.journal, .port] d (d.passStop p) := by
  unfold Device.passStop
  dsimp only
  generalize (if (decide (p.start ≠ d.journal.liveTail) && decide (d.journal.debt < Config.debtCap)) = true
    then d.journal.debt + 1 else d.journal.debt) = debt
  by_cases h : d.journal.reclaim = .inPass
  · rw [if_pos h]
    exact (journal_frame d _).comp (requestForcedAnchor_frame _) (by decide) (by decide)
  · rw [if_neg h]
    split
    · exact (journal_frame d _).comp (issueAnchor_frame _ _) (by decide) (by decide)
    · exact (journal_frame d _).mono (by decide)

theorem requestHeader_frame (d : Device) (p : Nat) : unchangedBut [.port] d (d.requestHeader p) := request_frame _ _

theorem passRun_frame (d : Device) (p : Pass) : unchangedBut [.journal, .port] d (d.passRun p) := by
  unfold Device.passRun
  simp only
  split
  · exact (journal_frame d _).comp (passStop_frame _ _) (by decide) (by decide)
  · split
    · split
      · exact (journal_frame d _).comp (passStop_frame _ _) (by decide) (by decide)
      · exact (journal_frame d _).comp (requestHeader_frame _ _) (by decide) (by decide)
    · exact (journal_frame d _).comp (requestHeader_frame _ _) (by decide) (by decide)

theorem beginPass_frame (d : Device) : unchangedBut [.journal, .port] d d.beginPass := passRun_frame _ _

theorem passNext_frame (d : Device) : unchangedBut [.journal, .port] d d.passNext := by
  unfold Device.passNext
  split
  · exact (journal_frame d _).comp (beginPass_frame _) (by decide) (by decide)
  · exact .refl _ _

theorem requestPass_frame (d : Device) : unchangedBut [.journal, .port] d d.requestPass := by
  unfold Device.requestPass
  split
  · split
    · exact beginPass_frame _
    · exact (journal_frame d _).mono (by decide)
  · exact .refl _ _

theorem requestReclaim_frame (d : Device) : unchangedBut [.journal, .port] d d.requestReclaim := by
  unfold Device.requestReclaim
  split
  · exact .refl _ _
  · exact (journal_frame d _).mono (by decide)
  · simp only
    split
    · exact (journal_frame d _).comp (beginPass_frame _) (by decide) (by decide)
    · exact (journal_frame d _).mono (by decide)

theorem endReclaim_frame (d : Device) : unchangedBut [.journal, .port] d d.endReclaim := by
  unfold Device.endReclaim
  simp only
  split
  · exact (journal_frame d _).comp (requestReclaim_frame _) (by decide) (by decide)
  · exact (journal_frame d _).mono (by decide)

theorem anchorLanded_frame (d : Device) (w : AnchorWrite) : unchangedBut [.journal] d (d.anchorLanded w) :=
  journal_frame _ _

theorem formatLanded_frame (d : Device) : unchangedBut [.journal] d d.formatLanded := journal_frame _ _

theorem anchorNext_frame (d : Device) (w : AnchorWrite) : unchangedBut [.journal, .port] d (d.anchorNext w) := by
  unfold Device.anchorNext
  split
  · exact issueAnchor_frame _ _
  · split
    · simp only
      split
      · exact (journal_frame d _).comp (endReclaim_frame _) (by decide) (by decide)
      · exact (journal_frame d _).comp (issueAnchor_frame _ _) (by decide) (by decide)
    · split
      · exact endReclaim_frame _
      · exact .refl _ _

theorem retire_frame (d : Device) (t : TailId) (n : Nat) : unchangedBut [.journal] d (d.retire t n) :=
  journal_frame _ _

theorem passHalt_frame (d : Device) (p : Pass) : unchangedBut [.journal, .port] d (d.passHalt p) := by
  unfold Device.passHalt
  split
  · exact (journal_frame d _).comp (passStop_frame _ _) (by decide) (by decide)
  · exact passStop_frame _ _

/-! ### Queue and engine -/

theorem requestData_frame (d : Device) : unchangedBut [.port] d d.requestData := by
  unfold Device.requestData
  split
  · exact request_frame _ _
  · exact .refl _ _

theorem engineNext_frame (d : Device) : unchangedBut [.engine, .journal, .mgmt, .port] d d.engineNext := by
  unfold Device.engineNext
  split
  · exact (engine_frame d _).mono (by decide)
  · exact (engine_frame d _).comp (requestData_frame _) (by decide) (by decide)
  · exact (engine_frame d _).comp (requestData_frame _) (by decide) (by decide)
  · exact (engine_frame d _).comp (requestAppend_frame _ _ _) (by decide) (by decide)
  · exact (engine_frame d _).comp (requestAppend_frame _ _ _) (by decide) (by decide)
  · exact (engine_frame d _).comp (request_frame _ _) (by decide) (by decide)

theorem engineSees_frame (d : Device) : unchangedBut [.engine, .journal, .mgmt, .port] d d.engineSees := by
  unfold Device.engineSees
  split
  · exact engineNext_frame _
  · exact (engine_frame d _).mono (by decide)
  · exact .refl _ _

theorem countPlaced_frame (d : Device) (e : QEntry) : unchangedBut [.contexts] d (d.countPlaced e) := by
  unfold Device.countPlaced
  split
  · exact .refl _ _
  · exact modifyCtx_frame _ _ _

theorem countLeft_frame (d : Device) (e : QEntry) : unchangedBut [.contexts] d (d.countLeft e) := by
  unfold Device.countLeft
  split
  · exact .refl _ _
  · exact modifyCtx_frame _ _ _

theorem placeEntry_frame (d : Device) (e : QEntry) :
    unchangedBut [.contexts, .queue, .engine, .journal, .mgmt, .port] d (d.placeEntry e) :=
  ((queue_frame d _).comp (countPlaced_frame _ _) (by decide) (by decide) :
    unchangedBut [.queue, .contexts] d _).comp (engineSees_frame _) (by decide) (by decide)

theorem headLeaves_frame (d : Device) : unchangedBut [.contexts, .queue] d d.headLeaves := by
  unfold Device.headLeaves
  split
  · exact .refl _ _
  · exact (queue_frame d _).comp (countLeft_frame _ _) (by decide) (by decide)

theorem requestWalkLine_frame (d : Device) (p n : Nat) : unchangedBut [.port] d (d.requestWalkLine p n) :=
  request_frame _ _

theorem select_frame (d : Device) : unchangedBut [.rollback, .port] d d.select := by
  unfold Device.select
  split
  · split
    · exact .refl _ _
    · exact (rollback_frame d _).comp (requestWalkLine_frame _ _ _) (by decide) (by decide)
  · exact .refl _ _

theorem appendToList_frame (d : Device) (c : Ctx) (o : FinishOutcome) :
    unchangedBut [.rollback, .port] d (d.appendToList c o) :=
  (rollback_frame d _).comp (select_frame _) (by decide) (by decide)

theorem undo_frame (d : Device) (c : Ctx) (o : FinishOutcome) :
    unchangedBut [.contexts, .rollback, .port] d (d.undo c o) :=
  (modifyCtx_frame d _ _).comp (appendToList_frame _ _ _) (by decide) (by decide)

theorem finish_frame (d : Device) (c : Ctx) (o : FinishOutcome) : unchangedBut [.contexts, .own] d (d.finish c o) :=
  (own_frame d _).comp (modifyCtx_frame _ _ _) (by decide) (by decide)

theorem setNewest_frame (d : Device) (c : Ctx) (p : Nat) : unchangedBut [.contexts] d (d.setNewest c p) :=
  modifyCtx_frame _ _ _

theorem setLocators_frame (d : Device) (g : Group) (p : Nat) : unchangedBut [.own] d (d.setLocators g p) :=
  own_frame _ _

/-! ### Region map and host port -/

theorem applyCopy_frame (d : Device) : unchangedBut [.regions] d d.applyCopy := regions_frame _ _

theorem copyIfQuiet_frame (d : Device) : unchangedBut [.regions] d d.copyIfQuiet := by
  unfold Device.copyIfQuiet
  split
  · exact applyCopy_frame _
  · exact .refl _ _

theorem answer_frame (d : Device) (r : Rsp) (ws : List Word) : unchangedBut [.host] d (d.answer r ws) := host_frame _ _

theorem refuse_frame (d : Device) (r : Rsp) (ws : List Word) (a : Word) (x : BitVec 3) (k : CycleKind) :
    unchangedBut [.host] d (d.refuse r ws a x k) :=
  (answer_frame d r ws).trans (host_frame _ _)

theorem waitOn_frame (d : Device) (c : Cycle) (w : WaitCond) : unchangedBut [.host] d (d.waitOn c w) := host_frame _ _

theorem requestHostLine_frame (d : Device) (l : List Nat) : unchangedBut [.port] d (d.requestHostLine l) := by
  unfold Device.requestHostLine
  split
  · exact .refl _ _
  · exact request_frame _ _

theorem serve_frame (d : Device) (c : ReadCycle) (o : BurstOrder) (f : Fin 8 → Nat) :
    unchangedBut [.host, .port] d (d.serve c o f) :=
  (host_frame d _).comp (requestHostLine_frame _ _) (by decide) (by decide)

theorem evalRead_frame (d : Device) (c : ReadCycle) (o : BurstOrder) :
    unchangedBut [.host, .port] d (d.evalRead c o) := by
  unfold Device.evalRead
  have r : ∀ code, unchangedBut [.host, .port] d (d.refuseRead c code) := fun _ =>
    (refuse_frame _ _ _ _ _ _).mono (by decide)
  have w : ∀ k, unchangedBut [.host, .port] d (d.waitOn (.read c o) k) := fun _ =>
    (waitOn_frame _ _ _).mono (by decide)
  split
  · exact r _
  · split
    · exact r _
    · exact r _
    · simp only
      split
      · exact w _
      · split
        · exact serve_frame _ _ _ _
        · split
          · exact w _
          · split <;> exact serve_frame _ _ _ _

/-- The blocks that an evaluation may change. -/
def evalBlocks : List Block := [.host, .contexts, .own, .queue, .engine, .journal, .mgmt, .port]

theorem refuseWrite_frame (d : Device) (c : WriteCycle) (r : Rsp) : unchangedBut [.host] d (d.refuseWrite c r) :=
  refuse_frame _ _ _ _ _ _

theorem admitEntry_frame (d : Device) (c : WriteCycle) (o : BurstOrder) (e : QEntry) :
    unchangedBut evalBlocks d (d.admitEntry c o e) := by
  unfold Device.admitEntry
  split
  · exact (waitOn_frame _ _ _).mono (by decide)
  · exact (placeEntry_frame d e).comp (answer_frame _ _ _) (by decide) (by decide)

theorem logWords_frame (d : Device) (l : Nat) (c : Ctx) (i : Word) (m : WordSet) :
    unchangedBut [.own, .contexts] d (d.logWords l c i m) := by
  unfold Device.logWords
  split
  · exact (own_frame d _).comp (modifyCtx_frame _ _ _) (by decide) (by decide)
  · exact (own_frame d _).mono (by decide)

theorem spoil_frame (d : Device) (c : Ctx) (k : SpoilCause) : unchangedBut [.contexts] d (d.spoil c k) :=
  modifyCtx_frame _ _ _

theorem admitLogged_frame (d : Device) (c : WriteCycle) (o : BurstOrder) (x : Ctx) (m : WordSet) :
    unchangedBut evalBlocks d (d.admitLogged c o x m) := by
  unfold Device.admitLogged
  simp only
  split
  · split
    · exact (waitOn_frame d _ _).comp (requestReclaim_frame _) (by decide) (by decide)
    · exact (spoil_frame d _ _).comp (refuseWrite_frame _ _ _) (by decide) (by decide)
  · split
    · exact (waitOn_frame _ _ _).mono (by decide)
    · exact ((((logWords_frame d _ _ _ _).comp (reserve_frame _ _) (by decide) (by decide) :
        unchangedBut evalBlocks d _).comp (placeEntry_frame _ _) (by decide) (by decide) :
        unchangedBut evalBlocks d _)).comp (answer_frame _ _ _) (by decide) (by decide)

theorem admitTagged_frame (d : Device) (c : WriteCycle) (o : BurstOrder) (x : Ctx) :
    unchangedBut evalBlocks d (d.admitTagged c o x) := by
  unfold Device.admitTagged
  simp only
  split
  · split
    · exact admitEntry_frame _ _ _ _
    · exact admitLogged_frame _ _ _ _ _
  · split
    · exact (spoil_frame d _ _).comp (refuseWrite_frame _ _ _) (by decide) (by decide)
    · exact admitLogged_frame _ _ _ _ _

theorem admitByTag_frame (d : Device) (c : WriteCycle) (o : BurstOrder) (m : RegionMode) :
    unchangedBut evalBlocks d (d.admitByTag c o m) := by
  unfold Device.admitByTag
  split
  · split
    · exact (refuseWrite_frame _ _ _).mono (by decide)
    · exact admitEntry_frame _ _ _ _
  · split
    · exact admitTagged_frame _ _ _ _
    · exact (refuseWrite_frame _ _ _).mono (by decide)

theorem admitJournalled_frame (d : Device) (c : WriteCycle) (o : BurstOrder) (m : RegionMode) :
    unchangedBut evalBlocks d (d.admitJournalled c o m) := by
  unfold Device.admitJournalled
  split
  · split
    · split
      · exact (refuseWrite_frame _ _ _).mono (by decide)
      · exact (waitOn_frame _ _ _).mono (by decide)
    · exact admitByTag_frame _ _ _ _
  · exact admitByTag_frame _ _ _ _

theorem evalWrite_frame (d : Device) (c : WriteCycle) (o : BurstOrder) :
    unchangedBut evalBlocks d (d.evalWrite c o) := by
  unfold Device.evalWrite
  have r : ∀ code, unchangedBut evalBlocks d (d.refuseWrite c code) := fun _ =>
    (refuseWrite_frame _ _ _).mono (by decide)
  split
  · exact r _
  · split
    · exact r _
    · exact r _
    · split
      · exact r _
      · split
        · exact (answer_frame _ _ _).mono (by decide)
        · split
          · exact admitEntry_frame _ _ _ _
          · exact admitJournalled_frame _ _ _ _

theorem admitOpen_frame (d : Device) (c : Ctx) : unchangedBut evalBlocks d (d.admitOpen c) := by
  unfold Device.admitOpen
  simp only
  refine unchangedBut.comp (l := evalBlocks) ?_ (answer_frame _ _ _) (by decide) (by decide)
  refine unchangedBut.comp (l := evalBlocks) ?_ (placeEntry_frame _ _) (by decide) (by decide)
  refine unchangedBut.comp (l := evalBlocks) ?_ (modifyCtx_frame _ _ _) (by decide) (by decide)
  exact (reserve_frame d _).comp (journal_frame _ _) (by decide) (by decide)

theorem reply_frame (d : Device) (c : Ctx) (r : ReplyResult) : unchangedBut [.host] d (d.reply c r) :=
  answer_frame _ _ _

theorem evalOpen_frame (d : Device) (c : Ctx) : unchangedBut evalBlocks d (d.evalOpen c) := by
  unfold Device.evalOpen
  have r : ∀ k, unchangedBut evalBlocks d (d.reply c k) := fun _ => (reply_frame _ _ _).mono (by decide)
  split
  · exact r _
  · split
    · exact r _
    · split
      · exact r _
      · split
        · split
          · exact (waitOn_frame d _ _).comp (requestReclaim_frame _) (by decide) (by decide)
          · exact r _
        · split
          · exact (waitOn_frame _ _ _).mono (by decide)
          · exact admitOpen_frame _ _

theorem takeCommit_frame (d : Device) (c : Ctx) : unchangedBut evalBlocks d (d.takeCommit c) := by
  unfold Device.takeCommit
  simp only
  refine unchangedBut.comp (l := evalBlocks) ?_ (placeEntry_frame _ _) (by decide) (by decide)
  exact (modifyCtx_frame d _ _).comp (waitOn_frame _ _ _) (by decide) (by decide)

theorem evalCommit_frame (d : Device) (c : Ctx) : unchangedBut evalBlocks d (d.evalCommit c) := by
  unfold Device.evalCommit
  split
  · split
    · exact (waitOn_frame _ _ _).mono (by decide)
    · exact takeCommit_frame _ _
  all_goals exact (reply_frame _ _ _).mono (by decide)

theorem evaluate_frame (d : Device) (c : Cycle) : unchangedBut evalBlocks d (d.evaluate c) := by
  cases c
  · exact (evalRead_frame _ _ _).mono (by decide)
  · exact evalWrite_frame _ _ _
  · exact evalOpen_frame _ _
  · exact evalCommit_frame _ _

theorem wake_frame (d : Device) (p : WaitCond → Bool) : unchangedBut evalBlocks d (d.wake p) := by
  unfold Device.wake
  split
  · split
    · exact evaluate_frame _ _
    · exact .refl _ _
  · exact .refl _ _

/-- The blocks that `observe` may change. -/
def observeBlocks : List Block := [.regions, .drawn] ++ evalBlocks

theorem observe_frame (d : Device) (p : WaitCond → Bool) : unchangedBut observeBlocks d (d.observe p) := by
  unfold Device.observe
  split
  · have h0 : unchangedBut observeBlocks d { d with drawn := d.drawn + 1 } := by
      intro b hb; cases b <;> first | rfl | exact absurd (by decide) hb
    simp only
    split
    · exact h0.trans ((applyCopy_frame _).comp (wake_frame _ _) (by decide) (by decide))
    · exact h0.trans ((wake_frame _ _).comp (copyIfQuiet_frame _) (by decide) (by decide))
  · exact (copyIfQuiet_frame d).comp (wake_frame _ _) (by decide) (by decide)

/-! ### Part control -/

theorem clearWaiter_frame (d : Device) (k : WaitCond) : unchangedBut [.contexts] d (d.clearWaiter k) := by
  unfold Device.clearWaiter
  split
  · exact modifyCtx_frame _ _ _
  all_goals exact .refl _ _

theorem holdHost_frame (d : Device) : unchangedBut [.contexts, .host] d d.holdHost := by
  unfold Device.holdHost
  split
  · exact (clearWaiter_frame d _).comp (answer_frame _ _ _) (by decide) (by decide)
  · exact (host_frame d _).mono (by decide)
  all_goals exact .refl _ _

theorem stopLeases_frame (d : Device) : unchangedBut [.contexts] d d.stopLeases := by
  intro b hb; cases b <;> first | rfl | exact absurd (by decide) hb

theorem holdRollback_frame (d : Device) : unchangedBut [.rollback, .port] d d.holdRollback := by
  unfold Device.holdRollback
  split
  · split
    · exact (withdraw_frame d _).comp (rollback_frame _ _) (by decide) (by decide)
    · exact .refl _ _
  · exact .refl _ _

theorem holdRequests_frame (d : Device) : unchangedBut [.journal] d d.holdRequests := journal_frame _ _

theorem holdPass_frame (d : Device) : unchangedBut [.journal, .port] d d.holdPass := by
  unfold Device.holdPass
  split
  · split
    · exact (withdraw_frame d _).comp (passStop_frame _ _) (by decide) (by decide)
    · exact .refl _ _
  · exact .refl _ _

/-- The blocks that the entry to HOLDING may change. -/
def holdBlocks : List Block := [.part, .contexts, .host, .rollback, .port, .journal]

theorem enterHolding_frame (d : Device) : unchangedBut holdBlocks d d.enterHolding := by
  unfold Device.enterHolding
  refine unchangedBut.comp (l := holdBlocks) ?_ (holdPass_frame _) (by decide) (by decide)
  refine unchangedBut.comp (l := holdBlocks) ?_ (holdRequests_frame _) (by decide) (by decide)
  refine unchangedBut.comp (l := holdBlocks) ?_ (holdRollback_frame _) (by decide) (by decide)
  refine unchangedBut.comp (l := holdBlocks) ?_ (stopLeases_frame _) (by decide) (by decide)
  exact (part_frame d _).comp (holdHost_frame _) (by decide) (by decide)

theorem holdReact_frame (d : Device) : unchangedBut holdBlocks d d.holdReact := by
  unfold Device.holdReact
  split <;> first | exact enterHolding_frame _ | exact .refl _ _

/-- A start leaves the DRAM and the count of free values as they are. -/
theorem beginStart_frame (d : Device) (k : StartKind) (st : Straps) :
    unchangedBut [.host, .regions, .contexts, .own, .queue, .engine, .journal, .rollback, .port, .part, .mgmt] d
      (d.beginStart k st) := by
  have h : unchangedBut [.host, .regions, .contexts, .own, .queue, .engine, .journal, .rollback, .port, .part, .mgmt] d
      (d.startClear k st) := by
    intro b hb; cases b <;> first | rfl | exact absurd (by decide) hb
  unfold Device.beginStart
  cases k
  · refine h.trans ?_
    intro b hb; cases b <;> first | rfl | exact absurd (by decide) hb
  · refine h.trans ?_
    intro b hb; cases b <;> first | rfl | exact absurd (by decide) hb
  · exact h.trans ((copyIfQuiet_frame _).mono (by decide))

theorem restartIfFree_frame (d : Device) (st : Straps) :
    unchangedBut [.host, .regions, .contexts, .own, .queue, .engine, .journal, .rollback, .port, .part, .mgmt] d
      (d.restartIfFree st) := by
  unfold Device.restartIfFree
  split
  · exact beginStart_frame _ _ _
  · exact .refl _ _

theorem enterRunning_frame (d : Device) : unchangedBut [.part, .mgmt] d d.enterRunning := by
  unfold Device.enterRunning
  simp only
  split
  · exact ((part_frame d _).comp (raise_frame _ _) (by decide) (by decide) :
      unchangedBut [.part, .mgmt] d _).comp (raise_frame _ _) (by decide) (by decide)
  · exact (part_frame d _).comp (raise_frame _ _) (by decide) (by decide)

theorem closeStart_frame (d : Device) : unchangedBut [.journal, .port] d d.closeStart := by
  unfold Device.closeStart
  split
  · exact issueAnchor_frame _ _
  · exact .refl _ _

theorem closeBanks_frame (d : Device) : unchangedBut [.port] d d.closeBanks := by
  unfold Device.closeBanks
  split
  · exact port_frame _ _
  · exact .refl _ _

theorem tryEnter_frame (d : Device) : unchangedBut [.port] d d.tryEnter := by
  unfold Device.tryEnter
  split
  · exact (port_frame d _).trans (closeBanks_frame _)
  · exact .refl _ _

/-- What ends every command changes the memory port, the state of the write engine at a grant, and the anchor writer at
the end of a start. -/
theorem settle_frame (d : Device) : unchangedBut [.journal, .port, .engine] d d.settle :=
  ((closeStart_frame d).comp (tryEnter_frame _) (by decide) (by decide) :
    unchangedBut [.journal, .port] d _).comp (grant_frame _) (by decide) (by decide)

theorem cutAccess_frame (d : Device) : unchangedBut [.dram, .drawn] d d.cutAccess := by
  unfold Device.cutAccess
  split
  · intro b hb; cases b <;> first | rfl | exact absurd (by decide) hb
  · exact .refl _ _

theorem cutHost_frame (d : Device) : unchangedBut [.contexts, .host] d d.cutHost := by
  unfold Device.cutHost
  simp only
  split
  · exact (clearWaiter_frame d _).comp (host_frame _ _) (by decide) (by decide)
  · exact (host_frame d _).mono (by decide)

/-! ### Management frames -/

/-- A frame in progress changes the management port alone. -/
theorem frameGoesOn_frame (d : Device) (f : Frame) : unchangedBut [.mgmt] d (d.frameGoesOn f) := mgmt_frame _ _

/-- So does the end of a frame, beside its effect. -/
theorem endFrame_frame (d : Device) (f : Frame) (out : Device) (r : FrameResult) :
    unchangedBut [.mgmt] d (d.endFrame f out r) := mgmt_frame _ _

theorem readFrame_frame (d : Device) (f : Frame) : unchangedBut [.mgmt] d (d.readFrame f) := endFrame_frame _ _ _ _

theorem brokenFrame_frame (d : Device) (f : Frame) : unchangedBut [.mgmt] d (d.brokenFrame f) := endFrame_frame _ _ _ _

end Sys2Proof.Machine
end

