-- ==== Sys2Proof/Laws/Journal.lean ====
section
/-! SUPPORT. What the journal controller's shared operations make of its state: appends, passes and reclaims. -/

namespace Sys2Proof.Machine

/-! ### Appends -/

/-- A record placed at `pos` is the append in hand. -/
theorem placeRecord_journal (d : Device) (who : Appender) (r : RecordReq) (pos : Nat) :
    (d.placeRecord who r pos).journal =
      { d.journal with append := some (d.recordAppend who r pos d.journal.nextSeq) } := by
  cases r with
  | mk kind c i b l im m =>
    unfold Device.placeRecord Device.requestAppendWrite Device.recordAppend Device.linkFor
    generalize (d.ctx c).newest = n
    cases kind <;> cases n <;> (dsimp only; split <;> rfl)

/-- A PAD placed at the head is the append in hand. -/
theorem placePad_journal (d : Device) (who : Appender) (req : RecordReq) (r : Nat) :
    (d.placePad who req r).journal = { d.journal with
      append := some { who := who, req := req, padLen := some r, pos := d.journal.head, seq := d.journal.nextSeq
                       writes := recordWrites d.part.straps d.journal.head
                         (recordHeader 5 0 0 r d.journal.nextSeq 0 0 0xFFFFFFFF []) [] } } := by
  unfold Device.placePad Device.requestAppendWrite
  dsimp only
  split <;> rfl

/-- The free-space note touches the alert causes alone. -/
theorem noteFree_journal (d : Device) (n : Int) : (d.noteFree n).journal = d.journal :=
  noteFree_frame d n .journal (by decide)

/-- The append of a record depends on the contexts and the straps alone. -/
theorem recordAppend_congr {d e : Device} (hc : e.contexts = d.contexts) (hp : e.part = d.part) (who : Appender)
    (req : RecordReq) (pos : Nat) (seq : Word) : e.recordAppend who req pos seq = d.recordAppend who req pos seq := by
  unfold Device.recordAppend Device.ctx
  rw [hc, hp]

/-- What a skip of the ring end makes of the journal controller (R108). -/
theorem skipRingEnd_journal (d : Device) (r : Nat) : (d.skipRingEnd r).journal = { d.journal with
    head := 0, liveTail := if d.journal.liveTail = d.journal.head then 0 else d.journal.liveTail, endGap := r } :=
  noteFree_journal _ _

/-- An append begins at the head, behind a PAD, or behind a skip (R108). -/
theorem beginAppend_journal (d : Device) (who : Appender) (req : RecordReq) :
    (d.beginAppend who req).journal = d.placedJournal who req := by
  have hl : Config.headerLength = 6 := rfl
  unfold Device.beginAppend Device.placedJournal Device.placedAppend RecordReq.length
  dsimp only
  split
  · next h => rw [if_pos (by omega), if_pos (by omega), placeRecord_journal]
  · next h =>
    split
    · next h6 => rw [if_pos (by omega), if_neg (by omega), if_pos (by omega), placePad_journal]
    · next h6 =>
      have h1 : ¬ 6 + req.images.length ≤ d.ring - d.journal.head := by omega
      have h2 : ¬ 6 ≤ d.ring - d.journal.head := by omega
      have f := skipRingEnd_frame d (d.ring - d.journal.head)
      rw [placeRecord_journal, recordAppend_congr (f .contexts (by decide)) (f .part (by decide)), skipRingEnd_journal]
      simp only [if_neg h1, if_neg h2]

/-- An appender's request begins an append, or waits behind the one in hand (R107). -/
theorem requestAppend_journal (d : Device) (who : Appender) (req : RecordReq) :
    (d.requestAppend who req).journal = d.appendAsked who req := by
  unfold Device.requestAppend Device.appendAsked
  cases h : d.journal.append with
  | none => exact beginAppend_journal d who req
  | some a => rfl

/-! ### Passes and reclaims -/

/-- A forced reclaim's anchor write is issued, or pending (R120). -/
theorem requestForcedAnchor_journal (d : Device) : d.requestForcedAnchor.journal =
    match d.journal.anchor with
    | none => { d.journal with anchor := some { tail := d.journal.liveTail, why := .forced } }
    | some _ => { d.journal with forcedPending := true } := by
  unfold Device.requestForcedAnchor
  cases h : d.journal.anchor <;> rfl

/-- A pass stops (R114, R117, R119). -/
theorem passStop_journal (d : Device) (p : Pass) :
    (d.passStop p).journal = d.stoppedPass d.journal p.start d.journal.liveTail d.journal.tailRec := by
  unfold Device.passStop Device.stoppedPass
  dsimp only
  by_cases hm : p.start ≠ d.journal.liveTail ∧ d.journal.debt < 255
  · have e : (decide (p.start ≠ d.journal.liveTail) && decide (d.journal.debt < Config.debtCap)) = true :=
      Bool.and_eq_true_iff.mpr ⟨decide_eq_true hm.1, decide_eq_true hm.2⟩
    rw [e]
    simp only [hm.1, hm.2, ne_eq, not_false_eq_true, and_self, if_true, true_and]
    by_cases hr : d.journal.reclaim = .inPass
    · rw [if_pos hr, if_pos hr]
      exact (requestForcedAnchor_journal _).trans (by cases h : d.journal.anchor <;> rfl)
    · rw [if_neg hr, if_neg hr]
      split <;> rfl
  · have e : (decide (p.start ≠ d.journal.liveTail) && decide (d.journal.debt < Config.debtCap)) = false :=
      Bool.eq_false_iff.mpr fun h => hm ⟨of_decide_eq_true (Bool.and_eq_true_iff.mp h).1,
        of_decide_eq_true (Bool.and_eq_true_iff.mp h).2⟩
    rw [e]
    simp only [hm, false_and, if_false, Bool.false_eq_true]
    by_cases hr : d.journal.reclaim = .inPass
    · rw [if_pos hr, if_pos hr]
      exact (requestForcedAnchor_journal _).trans (by cases h : d.journal.anchor <;> rfl)
    · rw [if_neg hr, if_neg hr]

/-- Steps 1 to 3 of R116. -/
theorem passRun_journal (d : Device) (p : Pass) : (d.passRun p).journal = d.begunPass d.journal p.start p.expected := by
  have hl : Config.headerLength = 6 := rfl
  unfold Device.passRun Device.begunPass
  dsimp only
  split
  · exact passStop_journal _ _
  · split
    · next h =>
      rw [if_neg (show ¬ 6 ≤ d.ring - d.journal.liveTail by omega)]
      split
      · exact passStop_journal _ _
      · rfl
    · next h =>
      rw [if_pos (show 6 ≤ d.ring - d.journal.liveTail by omega)]
      rfl

/-- The finished test says R113's words. -/
theorem finished_iff (d : Device) (t : TailId) : d.finished t = true ↔ recordFinished d t := by
  unfold Device.finished recordFinished
  cases t with
  | mk kind ctx inst seq => cases kind <;> cases ctx <;> simp

/-- The reclaim test says R113's words. -/
theorem reclaimPossible_iff (d : Device) : d.reclaimPossible = true ↔ reclaimRule d := by
  unfold Device.reclaimPossible reclaimRule
  dsimp only
  cases d.journal.tailRec <;> simp [finished_iff]

/-- The context byte of a header (R104). -/
theorem ctxOfByte_iff (b : Byte) (c : Ctx) : ctxOfByte b = some c ↔ b.toNat = c.val + 1 := by
  unfold ctxOfByte
  have h : ∀ n : Nat, n < 256 → (b = BitVec.ofNat 8 n ↔ b.toNat = n) := fun n hn => by
    rw [← BitVec.toNat_inj, BitVec.toNat_ofNat, Nat.mod_eq_of_lt hn]
  have h1 := h 1 (by decide)
  have h2 := h 2 (by decide)
  have h3 := h 3 (by decide)
  have h4 := h 4 (by decide)
  fin_cases c <;> simp only [] <;> split_ifs <;> simp_all

/-- The kind byte of a header (R103). -/
theorem kindOfCode_iff (b : Byte) (k : RecKind) : kindOfCode b = some k ↔ kindCoded k b := by
  unfold kindOfCode kindCoded
  cases k <;> simp only [] <;> split_ifs <;> simp_all

/-- A header names the record that the model reads from it, and no other (R104). -/
theorem headerIdentity_iff (ws : List Word) (t : TailId) : headerIdentity ws = some t ↔ headerNames ws t := by
  obtain ⟨kind, ctx, inst, seq⟩ := t
  unfold headerIdentity headerNames
  simp only [← ctxOfByte_iff, ← kindOfCode_iff]
  generalize kindOfCode ((ws.getD 0 0).extractLsb' 24 8) = k
  generalize ctxOfByte ((ws.getD 0 0).extractLsb' 16 8) = c
  cases k with
  | none => simp
  | some x => cases c <;> cases x <;> cases kind <;> simp [eq_comm, and_comm]

/-- A pass is begun at the live tail. -/
theorem beginPass_journal (d : Device) : d.beginPass.journal = d.begunPass d.journal d.journal.liveTail none :=
  passRun_journal _ _

/-- The finish of an instance requests a pass (R115, R123, R127). -/
theorem requestPass_journal (d : Device) : d.requestPass.journal = d.passRequested d.journal := by
  unfold Device.requestPass Device.passRequested
  by_cases hc : (d.part.state = .running ∨ d.part.state = .starting) ∧ d.journal.cond = .valid
  · rw [if_pos hc, if_pos hc]
    cases h : d.journal.pass with
    | none => exact beginPass_journal d
    | some p => first | rfl | simp only [h]
  · rw [if_neg hc, if_neg hc]

/-- A forced reclaim is requested (R114, R115). -/
theorem requestReclaim_journal (d : Device) : d.requestReclaim.journal = d.reclaimRequested d.journal := by
  unfold Device.requestReclaim Device.reclaimRequested
  cases h : d.journal.reclaim <;> cases hp : d.journal.pass <;>
    first | rfl | exact beginPass_journal _ | simp only [h, hp]

/-- The closing anchor write of a start (R181). -/
theorem closeStart_journal (d : Device) : d.closeStart.journal = d.closed d.journal := by
  unfold Device.closeStart Device.closed
  split <;> rfl

/-- What ends every command changes the journal controller by the closing anchor write alone. -/
theorem settle_journal (d : Device) : d.settle.journal = d.closed d.journal := by
  unfold Device.settle
  rw [show d.closeStart.tryEnter.grant.journal = d.closeStart.journal from
    ((tryEnter_frame d.closeStart).comp (grant_frame _) (by decide) (by decide) :
      unchangedBut [.port, .engine] _ _) .journal (by decide)]
  exact closeStart_journal d

end Sys2Proof.Machine
end

