-- ==== Sys2Proof/Laws/Memory.lean ====
section
/-! SUPPORT. The DRAM: every memory operation keeps the canonical form, and what a byte reads as after it. -/

namespace Sys2Proof.Machine

theorem risingFrom_mono {lo lo' : Nat} (h : lo ≤ lo') : ∀ {l : List Host.Cell}, risingFrom lo' l = true →
    risingFrom lo l = true
  | [], _ => rfl
  | (x, v) :: xs, hl => by
    simp only [risingFrom, Bool.and_eq_true, decide_eq_true_eq] at hl ⊢
    exact ⟨Nat.le_trans h hl.1, hl.2⟩

/-- Below the bound nothing is listed. -/
theorem cellAt_of_lt {a lo : Nat} (h : a < lo) : ∀ {l : List Host.Cell}, risingFrom lo l = true → cellAt a l = none
  | [], _ => rfl
  | (x, v) :: xs, hl => by
    simp only [risingFrom, Bool.and_eq_true, decide_eq_true_eq] at hl
    have hx : x ≠ a := by omega
    simp only [cellAt, if_neg hx]
    exact cellAt_of_lt (by omega) hl.2

theorem risingFrom_setCell {a lo : Nat} (v : Option Byte) (h : lo ≤ a) : ∀ {l : List Host.Cell},
    risingFrom lo l = true → risingFrom lo (setCell a v l) = true := by
  intro l
  induction l generalizing lo with
  | nil =>
    intro _
    cases v <;> simp [setCell, risingFrom, h]
  | cons c xs ih =>
    obtain ⟨x, w⟩ := c
    intro hl
    simp only [risingFrom, Bool.and_eq_true, decide_eq_true_eq] at hl
    unfold setCell
    by_cases h1 : a < x
    · have h2 : risingFrom (a + 1) ((x, w) :: xs) = true := by
        simp only [risingFrom, Bool.and_eq_true, decide_eq_true_eq]
        exact ⟨by omega, hl.2⟩
      cases v <;> simp_all [risingFrom]
    · by_cases h2 : a = x
      · subst h2
        cases v
        · simpa using risingFrom_mono (by omega) hl.2
        · simpa [risingFrom] using hl
      · simp only [h1, h2, if_false, risingFrom, Bool.and_eq_true, decide_eq_true_eq]
        exact ⟨hl.1, ih (by omega) hl.2⟩

/-- What is listed after `setCell`. -/
theorem cellAt_setCell (a b lo : Nat) (v : Option Byte) : ∀ (l : List Host.Cell), risingFrom lo l = true →
    cellAt b (setCell a v l) = if b = a then v else cellAt b l := by
  intro l
  induction l generalizing lo with
  | nil =>
    intro _
    by_cases h : b = a
    · subst h
      cases v <;> simp [setCell, cellAt]
    · have h' : a ≠ b := fun e => h e.symm
      cases v <;> simp [setCell, cellAt, h, h']
  | cons c xs ih =>
    obtain ⟨x, w⟩ := c
    intro hl
    simp only [risingFrom, Bool.and_eq_true, decide_eq_true_eq] at hl
    unfold setCell
    by_cases h1 : a < x
    · by_cases hb : b = a
      · subst hb
        have hx : x ≠ b := by omega
        cases v
        · have := cellAt_of_lt (a := b) (lo := x + 1) (by omega) hl.2
          simp [h1, cellAt, hx, this]
        · simp [h1, cellAt]
      · have h' : a ≠ b := fun e => hb e.symm
        cases v <;> simp [h1, cellAt, hb, h']
    · by_cases h2 : a = x
      · subst h2
        by_cases hb : b = a
        · subst hb
          cases v
          · have := cellAt_of_lt (a := b) (lo := b + 1) (by omega) hl.2
            simp [this]
          · simp [cellAt]
        · have h' : a ≠ b := fun e => hb e.symm
          cases v <;> simp [cellAt, hb, h']
      · simp only [h1, h2, if_false, cellAt]
        by_cases hx : x = b
        · subst hx
          have : x ≠ a := fun e => h2 e.symm
          simp [this]
        · simp only [hx, if_false]
          exact ih (x + 1) hl.2

/-- Listing one address changes no other, whatever the list's form. -/
theorem cellAt_setCell_of_ne {a b : Nat} (hb : b ≠ a) (v : Option Byte) : ∀ l : List Host.Cell,
    cellAt b (setCell a v l) = cellAt b l := by
  have hab : a ≠ b := fun e => hb e.symm
  intro l
  induction l with
  | nil => cases v <;> simp [setCell, cellAt, hab]
  | cons c xs ih =>
    obtain ⟨x, w⟩ := c
    unfold setCell
    by_cases h1 : a < x
    · cases v <;> simp [h1, cellAt, hab]
    · by_cases h2 : a = x
      · subst h2
        cases v <;> simp [cellAt, hab]
      · simp only [h1, h2, if_false, cellAt, ih]

/-- Every entry of a rising list is what `cellAt` gives for its address. -/
theorem cellAt_of_mem {lo : Nat} : ∀ {l : List Host.Cell} {c : Host.Cell}, risingFrom lo l = true → c ∈ l →
    cellAt c.1 l = some c.2 := by
  intro l
  induction l generalizing lo with
  | nil => intro c _ hc; cases hc
  | cons y xs ih =>
    obtain ⟨x, w⟩ := y
    intro c hl hc
    simp only [risingFrom, Bool.and_eq_true, decide_eq_true_eq] at hl
    rcases List.mem_cons.mp hc with rfl | hc
    · simp [cellAt]
    · have h1 := ih hl.2 hc
      by_cases hx : x = c.1
      · have := cellAt_of_lt (a := c.1) (lo := x + 1) (by omega) hl.2
        rw [this] at h1
        cases h1
      · simp [cellAt, hx, h1]

/-- What `cellAt` gives is an entry. -/
theorem mem_of_cellAt {a : Nat} {v : Byte} : ∀ {l : List Host.Cell}, cellAt a l = some v → (a, v) ∈ l := by
  intro l
  induction l with
  | nil => intro h; cases h
  | cons y xs ih =>
    obtain ⟨x, w⟩ := y
    intro h
    simp only [cellAt] at h
    by_cases hx : x = a
    · subst hx
      simp only [if_true, Option.some.injEq] at h
      subst h
      exact List.mem_cons_self
    · simp only [hx, if_false] at h
      exact List.mem_cons_of_mem _ (ih h)

/-- The canonical form, address by address. -/
theorem Memory.wf_iff (m : Memory) :
    m.wf = true ↔ risingFrom 0 m.cells = true ∧ ∀ a v, cellAt a m.cells = some v → v ≠ m.unlisted a := by
  constructor
  · intro h
    simp only [Memory.wf, Bool.and_eq_true, List.all_eq_true, decide_eq_true_eq] at h
    exact ⟨h.1, fun a v hv => h.2 (a, v) (mem_of_cellAt hv)⟩
  · intro h
    simp only [Memory.wf, Bool.and_eq_true, List.all_eq_true, decide_eq_true_eq]
    exact ⟨h.1, fun c hc => h.2 c.1 c.2 (cellAt_of_mem h.1 hc)⟩

@[simp] theorem Memory.write_lost (m : Memory) (a : Nat) (b : Byte) : (m.write a b).lost = m.lost := rfl

@[simp] theorem Memory.write_unlisted (m : Memory) (a x : Nat) (b : Byte) :
    (m.write a b).unlisted x = m.unlisted x := rfl

/-- A byte write keeps the canonical form. -/
theorem Memory.write_wf (m : Memory) (a : Nat) (b : Byte) (h : m.wf = true) : (m.write a b).wf = true := by
  rw [Memory.wf_iff] at h ⊢
  refine ⟨risingFrom_setCell _ (Nat.zero_le a) h.1, ?_⟩
  intro x v hv
  simp only [Memory.write] at hv
  rw [cellAt_setCell a x 0 _ _ h.1] at hv
  by_cases hx : x = a
  · subst hx
    by_cases hb : b = m.unlisted x
    · simp [hb] at hv
    · simp only [hb, if_true, if_false, Option.some.injEq] at hv
      subst hv
      exact hb
  · simp only [hx, if_false] at hv
    exact h.2 x v hv

/-- What a byte reads as after a byte write. -/
theorem Memory.read_write (m : Memory) (a x : Nat) (b : Byte) (h : m.wf = true) :
    (m.write a b).read x = if x = a then b else m.read x := by
  have hr := (m.wf_iff.mp h).1
  show (cellAt x (setCell a _ m.cells)).getD (m.unlisted x) = _
  rw [cellAt_setCell a x 0 _ _ hr]
  by_cases hx : x = a
  · subst hx
    by_cases hb : b = m.unlisted x
    · simp [hb]
    · simp [hb]
  · simp [hx, Memory.read]

/-- A byte write changes no other byte, whatever the DRAM's form. -/
theorem Memory.read_write_of_ne (m : Memory) {a x : Nat} (b : Byte) (hx : x ≠ a) :
    (m.write a b).read x = m.read x := by
  show (cellAt x (setCell a _ m.cells)).getD (m.unlisted x) = _
  rw [cellAt_setCell_of_ne hx]
  rfl

/-- The writes of a line keep the canonical form. -/
theorem Memory.writeBytes_wf (m : Memory) (line : Nat) (takes : Nat → Bool) (bs : List (Nat × Byte))
    (h : m.wf = true) : (m.writeBytes line takes bs).wf = true := by
  induction bs generalizing m with
  | nil => exact h
  | cons b bs ih =>
    simp only [Memory.writeBytes, List.foldl_cons]
    by_cases ht : takes b.1 = true
    · simp only [ht, if_true]
      exact ih _ (m.write_wf _ _ h)
    · simp only [ht]
      exact ih _ h

theorem Memory.writeLine_wf (m : Memory) (w : LineWrite) (h : m.wf = true) : (m.writeLine w).wf = true :=
  m.writeBytes_wf _ _ _ h

theorem Memory.cutLine_wf (m : Memory) (n : Nat) (w : LineWrite) (h : m.wf = true) : (m.cutLine n w).wf = true :=
  m.writeBytes_wf _ _ _ h

/-- A byte that none of the writes names reads as before. -/
theorem Memory.read_writeBytes_other (m : Memory) (line a : Nat) (takes : Nat → Bool) (bs : List (Nat × Byte))
    (ha : ∀ b ∈ bs, a ≠ line + b.1) : (m.writeBytes line takes bs).read a = m.read a := by
  induction bs generalizing m with
  | nil => rfl
  | cons b bs ih =>
    have hb : a ≠ line + b.1 := ha b List.mem_cons_self
    have hbs : ∀ x ∈ bs, a ≠ line + x.1 := fun x hx => ha x (List.mem_cons_of_mem _ hx)
    simp only [Memory.writeBytes, List.foldl_cons]
    by_cases ht : takes b.1 = true
    · simp only [ht, if_true]
      exact (ih _ hbs).trans (m.read_write_of_ne _ hb)
    · simp only [ht]
      exact ih _ hbs

/-- The bytes of a masked line write lie in its line. -/
theorem LineWrite.bytes_lt (w : LineWrite) : ∀ b ∈ w.bytes, b.1 < 32 := by
  intro b hb
  simp only [LineWrite.bytes, List.mem_flatMap, List.mem_map, List.mem_filter, List.mem_range] at hb
  obtain ⟨x, _, k, hk, rfl⟩ := hb
  have := x.pos.isLt
  simp only
  omega

/-- Outside its line a masked line write changes no byte. -/
theorem Memory.read_writeLine_outside (m : Memory) (w : LineWrite) (a : Nat)
    (ha : a < w.line ∨ w.line + 32 ≤ a) : (m.writeLine w).read a = m.read a :=
  m.read_writeBytes_other _ _ _ _ fun b hb => by
    have := w.bytes_lt b hb
    omega

/-- Outside its line a cut write changes no byte. -/
theorem Memory.read_cutLine_outside (m : Memory) (n : Nat) (w : LineWrite) (a : Nat)
    (ha : a < w.line ∨ w.line + 32 ≤ a) : (m.cutLine n w).read a = m.read a :=
  m.read_writeBytes_other _ _ _ _ fun b hb => by
    have := w.bytes_lt b hb
    omega

/-- Listing what is listed already changes nothing. -/
theorem setCell_cellAt (a lo : Nat) : ∀ l : List Host.Cell, risingFrom lo l = true → setCell a (cellAt a l) l = l := by
  intro l
  induction l generalizing lo with
  | nil => intro _; rfl
  | cons c xs ih =>
    obtain ⟨x, w⟩ := c
    intro hl
    simp only [risingFrom, Bool.and_eq_true, decide_eq_true_eq] at hl
    by_cases h1 : a < x
    · have hx : x ≠ a := by omega
      have := cellAt_of_lt (a := a) (lo := x + 1) (by omega) hl.2
      simp [cellAt, hx, this, setCell, h1]
    · by_cases h2 : x = a
      · subst h2
        simp [cellAt, setCell]
      · have h2' : a ≠ x := fun e => h2 e.symm
        simp only [cellAt, h2, setCell, h1, h2', if_false, ih (x + 1) hl.2]

/-- Writing the byte that an address reads as changes nothing, in canonical form. -/
theorem Memory.write_read_self (m : Memory) (a : Nat) (h : m.wf = true) : m.write a (m.read a) = m := by
  obtain ⟨hr, hu⟩ := m.wf_iff.mp h
  have hc : (if m.read a = m.unlisted a then none else some (m.read a)) = cellAt a m.cells := by
    cases hm : cellAt a m.cells with
    | none => simp [Memory.read, hm]
    | some v => simp [Memory.read, hm, hu a v hm]
  show { m with cells := setCell a _ m.cells } = m
  rw [hc, setCell_cellAt a 0 _ hr]

/-- A mix that was found is not bad. -/
theorem Memory.mixAvoiding_good (bad : Memory → Bool) (line : Nat) : ∀ (bs : List (Nat × Byte)) (m x : Memory),
    Memory.mixAvoiding bad line bs m = some x → bad x = false := by
  intro bs
  induction bs with
  | nil =>
    intro m x h
    unfold Memory.mixAvoiding at h
    by_cases hb : bad m = true
    · simp [hb] at h
    · simp only [hb, Bool.false_eq_true, if_false, Option.some.injEq] at h
      exact h ▸ Bool.eq_false_iff.mpr hb
  | cons b bs ih =>
    intro m x h
    unfold Memory.mixAvoiding at h
    cases hm : Memory.mixAvoiding bad line bs m with
    | some y => rw [hm] at h; exact (Option.some.inj h) ▸ ih m y hm
    | none => rw [hm] at h; exact ih _ x h

/-- Every mix is tried: one is found where one is not bad. -/
theorem Memory.mixAvoiding_isSome (bad : Memory → Bool) (line : Nat) (takes : Nat → Bool) :
    ∀ (bs : List (Nat × Byte)) (m : Memory), bad (m.writeBytes line takes bs) = false →
      (Memory.mixAvoiding bad line bs m).isSome = true := by
  intro bs
  induction bs with
  | nil =>
    intro m h
    have h : bad m = false := h
    simp [Memory.mixAvoiding, h]
  | cons b bs ih =>
    intro m h
    unfold Memory.mixAvoiding
    cases hm : Memory.mixAvoiding bad line bs m with
    | some y => rfl
    | none =>
      by_cases ht : takes b.1 = true
      · refine ih _ ?_
        simpa only [Memory.writeBytes, List.foldl_cons, ht, if_true] using h
      · have := ih m (by simpa only [Memory.writeBytes, List.foldl_cons, ht, Bool.false_eq_true, if_false] using h)
        rw [hm] at this
        exact absurd this (by decide)

theorem Memory.mixAvoiding_wf (bad : Memory → Bool) (line : Nat) : ∀ (bs : List (Nat × Byte)) (m x : Memory),
    m.wf = true → Memory.mixAvoiding bad line bs m = some x → x.wf = true := by
  intro bs
  induction bs with
  | nil =>
    intro m x hw h
    unfold Memory.mixAvoiding at h
    by_cases hb : bad m = true
    · simp [hb] at h
    · simp only [hb, Bool.false_eq_true, if_false, Option.some.injEq] at h
      exact h ▸ hw
  | cons b bs ih =>
    intro m x hw h
    unfold Memory.mixAvoiding at h
    cases hm : Memory.mixAvoiding bad line bs m with
    | some y => rw [hm] at h; exact (Option.some.inj h) ▸ ih m y hw hm
    | none => rw [hm] at h; exact ih _ x (m.write_wf _ _ hw) h

/-- A byte that none of the writes names reads as before. -/
theorem Memory.read_mixAvoiding_other (bad : Memory → Bool) (line a : Nat) : ∀ (bs : List (Nat × Byte)) (m x : Memory),
    (∀ b ∈ bs, a ≠ line + b.1) → Memory.mixAvoiding bad line bs m = some x → x.read a = m.read a := by
  intro bs
  induction bs with
  | nil =>
    intro m x _ h
    unfold Memory.mixAvoiding at h
    by_cases hb : bad m = true
    · simp [hb] at h
    · simp only [hb, Bool.false_eq_true, if_false, Option.some.injEq] at h
      rw [h]
  | cons b bs ih =>
    intro m x ha h
    have hbs : ∀ y ∈ bs, a ≠ line + y.1 := fun y hy => ha y (List.mem_cons_of_mem _ hy)
    unfold Memory.mixAvoiding at h
    cases hm : Memory.mixAvoiding bad line bs m with
    | some y => rw [hm] at h; exact (Option.some.inj h) ▸ ih m y hbs hm
    | none =>
      rw [hm] at h
      exact (ih _ x hbs h).trans (m.read_write_of_ne _ (ha b List.mem_cons_self))

/-- Where the bytes of a line have one write each, those that change nothing can be left out. -/
theorem Memory.writeBytes_filter (m0 : Memory) (line : Nat) (takes : Nat → Bool) : ∀ (bs : List (Nat × Byte)) (m : Memory),
    m.wf = true → (bs.map (·.1)).Nodup → (∀ b ∈ bs, m.read (line + b.1) = m0.read (line + b.1)) →
    m.writeBytes line takes (bs.filter fun b => decide (m0.read (line + b.1) ≠ b.2)) = m.writeBytes line takes bs := by
  intro bs
  induction bs with
  | nil => intro m _ _ _; rfl
  | cons b bs ih =>
    intro m hw hn hr
    have hn' := List.nodup_cons.mp (by simpa only [List.map_cons] using hn)
    have hb := hr b List.mem_cons_self
    have hne : ∀ x ∈ bs, line + x.1 ≠ line + b.1 := fun x hx e =>
      hn'.1 ((Nat.add_left_cancel e) ▸ List.mem_map_of_mem hx)
    by_cases hc : m0.read (line + b.1) = b.2
    · have hs : m.write (line + b.1) b.2 = m := by
        rw [← hc, ← hb]
        exact m.write_read_self _ hw
      rw [List.filter_cons_of_neg (by simpa using hc), ih m hw hn'.2 fun x hx => hr x (List.mem_cons_of_mem _ hx)]
      simp only [Memory.writeBytes, List.foldl_cons, hs, ite_self]
    · rw [List.filter_cons_of_pos (by simpa using hc)]
      simp only [Memory.writeBytes, List.foldl_cons]
      by_cases ht : takes b.1 = true
      · simp only [ht, if_true]
        exact ih _ (m.write_wf _ _ hw) hn'.2 fun x hx =>
          (m.read_write_of_ne _ (hne x hx)).trans (hr x (List.mem_cons_of_mem _ hx))
      · simp only [ht, Bool.false_eq_true, if_false]
        exact ih m hw hn'.2 fun x hx => hr x (List.mem_cons_of_mem _ hx)

/-- A cut write keeps the canonical form. -/
theorem Memory.cutAvoiding_wf (m : Memory) (n : Nat) (w : LineWrite) (bad : Memory → Bool) (h : m.wf = true) :
    (m.cutAvoiding n w bad).wf = true := by
  unfold Memory.cutAvoiding
  dsimp only
  split
  · cases hm : Memory.mixAvoiding bad w.line (w.bytes.filter fun b => decide (m.read (w.line + b.1) ≠ b.2)) m with
    | some x => exact Memory.mixAvoiding_wf bad w.line _ m x h hm
    | none => exact m.cutLine_wf n w h
  · exact m.cutLine_wf n w h

/-- Outside its line a cut write changes no byte. -/
theorem Memory.read_cutAvoiding_outside (m : Memory) (n : Nat) (w : LineWrite) (bad : Memory → Bool) (a : Nat)
    (ha : a < w.line ∨ w.line + 32 ≤ a) : (m.cutAvoiding n w bad).read a = m.read a := by
  unfold Memory.cutAvoiding
  dsimp only
  split
  · cases hm : Memory.mixAvoiding bad w.line (w.bytes.filter fun b => decide (m.read (w.line + b.1) ≠ b.2)) m with
    | some x =>
      refine Memory.read_mixAvoiding_other bad w.line a _ m x (fun b hb => ?_) hm
      have := w.bytes_lt b (List.mem_of_mem_filter hb)
      omega
    | none => exact m.read_cutLine_outside n w a ha
  · exact m.read_cutLine_outside n w a ha

/-- A cut write leaves nothing bad where R160 allows any mix that is not. -/
theorem Memory.cutAvoiding_good (m : Memory) (n : Nat) (w : LineWrite) (bad : Memory → Bool) (takes : Nat → Bool)
    (hw : m.wf = true) (hn : (w.bytes.map (·.1)).Nodup) (h : bad (m.writeBytes w.line takes w.bytes) = false) :
    bad (m.cutAvoiding n w bad) = false := by
  unfold Memory.cutAvoiding
  dsimp only
  split
  · rw [← Memory.writeBytes_filter m w.line takes w.bytes m hw hn fun _ _ => rfl] at h
    have hs := Memory.mixAvoiding_isSome bad w.line takes _ m h
    cases hm : Memory.mixAvoiding bad w.line (w.bytes.filter fun b => decide (m.read (w.line + b.1) ≠ b.2)) m with
    | some x => exact Memory.mixAvoiding_good bad w.line _ m x hm
    | none => rw [hm] at hs; exact absurd hs (by decide)
  · next hb => exact Bool.eq_false_iff.mpr hb

theorem State.reset_memory_wf : State.reset.dev.dram.wf = true := rfl

end Sys2Proof.Machine
end

