-- ==== Sys2Proof/Laws/Operands.lean ====
section
/-! SUPPORT. What the operand operations and the ownership lookups say, in the words of the statements. -/

namespace Sys2Proof.Machine

/-- The context lines 1-4 name contexts 1-4 (R21). -/
theorem ctxOfLines_iff (l : BitVec 3) (c : Ctx) : ctxOfLines l = some c ↔ l.toNat = c.val + 1 := by
  revert l c
  decide

/-- Gathering positions into a set adds each of them to the set begun with. -/
theorem getLsbD_foldl_positions (ws : List WordWrite) (m : WordSet) (i : Fin 8) :
    (ws.foldl (fun m w => m ||| (1#8 <<< w.pos.val)) m).getLsbD i.val = true ↔
      m.getLsbD i.val = true ∨ ∃ w ∈ ws, w.pos = i := by
  have one : ∀ p j : Fin 8, (1#8 <<< p.val).getLsbD j.val = true ↔ p = j := by decide
  induction ws generalizing m with
  | nil => simp
  | cons w ws ih =>
    refine (ih _).trans ?_
    rw [BitVec.getLsbD_or, Bool.or_eq_true, one, or_assoc]
    simp only [List.mem_cons, exists_eq_or_imp]

/-- The set of written words has the positions written (R69). -/
theorem getLsbD_wordSetOf (ws : List WordWrite) (i : Fin 8) :
    (wordSetOf ws).getLsbD i.val = true ↔ ∃ w ∈ ws, w.pos = i := by
  refine (getLsbD_foldl_positions ws 0 i).trans ?_
  simp

/-- The logged set has the words that hold a locator (R65). -/
theorem getLsbD_logged (e : OwnEntry) (i : Fin 8) : e.logged.getLsbD i.val = true ↔ e.words[i] ≠ none := by
  have fold : ∀ (is : List (Fin 8)) (m : WordSet),
      (is.foldl (fun m j => if (e.words[j]).isSome then m ||| (1#8 <<< j.val) else m) m).getLsbD i.val = true ↔
        m.getLsbD i.val = true ∨ (i ∈ is ∧ e.words[i] ≠ none) := by
    have one : ∀ p j : Fin 8, (1#8 <<< p.val).getLsbD j.val = true ↔ j = p := by decide
    intro is
    induction is with
    | nil => simp
    | cons j is ih =>
      intro m
      refine (ih _).trans ?_
      dsimp only
      by_cases hj : (e.words[j]).isSome = true
      · rw [if_pos hj, BitVec.getLsbD_or, Bool.or_eq_true, one, or_assoc]
        refine or_congr_right ?_
        constructor
        · rintro (rfl | ⟨hm, hn⟩)
          · exact ⟨List.mem_cons_self, Option.isSome_iff_ne_none.mp hj⟩
          · exact ⟨List.mem_cons_of_mem _ hm, hn⟩
        · rintro ⟨hm, hn⟩
          rcases List.mem_cons.mp hm with rfl | hm
          · exact Or.inl rfl
          · exact Or.inr ⟨hm, hn⟩
      · rw [if_neg hj]
        refine or_congr_right (and_congr_left fun hn => ?_)
        constructor
        · exact List.mem_cons_of_mem _
        · intro hm
          rcases List.mem_cons.mp hm with rfl | hm
          · exact absurd (Option.isSome_iff_ne_none.mpr hn) hj
          · exact hm
  refine (fold (List.finRange 8) 0).trans ?_
  simp

/-- A line without owner has no entry (R67). -/
theorem ownerOf_eq_none (d : Device) (line : Nat) : d.ownerOf line = none ↔ ∀ e ∈ d.own, e.line ≠ line := by
  unfold Device.ownerOf
  simp

/-- The owner of a line is an entry for it (R67). -/
theorem ownerOf_eq_some {d : Device} {line : Nat} {e : OwnEntry} (h : d.ownerOf line = some e) :
    e ∈ d.own ∧ e.line = line :=
  ⟨List.mem_of_find?_eq_some h, by simpa using List.find?_some h⟩

/-- Free space (R112). -/
theorem free_eq (d : Device) : d.free = (d.ring : Int)
    - ((d.journal.head + d.ring - d.journal.anchoredTail) % d.ring : Nat) - d.journal.reserved - 14 := rfl

end Sys2Proof.Machine
end

