-- ==== Sys2Proof/WellFormed.lean ====
section
/-! DEFINITION. Which command terms spell a command of their row. -/

namespace Sys2Proof

/-- A well-formed command: a WRITE has one data word a beat (R15); a MARK's address names the request of its row, and a
MARK_BADTAG's names nothing (R33); a frame fits the row it is sent under (R186, R192, log 26). -/
def Instr.wf : Instr → Bool
  | .hostWrite c => decide (c.data.length = c.blen.beats)
  | .openMark m => Machine.markNames .openKind m.addr
  | .commitMark m => Machine.markNames .commitKind m.addr
  | .abandonMark m => Machine.markNames .abandonKind m.addr
  | .renewMark m => Machine.markNames .renewKind m.addr
  | .queryMark m => Machine.markNames .queryKind m.addr
  | .markBadTag m => Machine.markNamesNothing m.addr
  | .managementReadFrame f => f.fits .read
  | .pendingTableWrite f => f.fits .pendingTable
  | .activeTableWrite f => f.fits .activeTable
  | .applyRequest f => f.fits .apply
  | .formatCommand f => f.fits .format
  | .holdCommand f => f.fits .hold
  | .releaseCommand f _ => f.fits .release
  | .alertCausesClear f => f.fits .causesClear
  | .alertMaskWrite f => f.fits .maskWrite
  | .settingWrite f => f.fits .setting
  | .hostRead _ | .hostReadAccessComplete | .waitLimitExpiry | .leaseExpiry _ | .oldLineReadComplete | .appendWriteComplete
  | .dataWriteComplete | .rollbackRecordReadComplete | .restoreWriteComplete | .headerReadComplete
  | .anchorWriteComplete | .refreshTimerExpiry | .refreshComplete | .selfRefreshEntryComplete _
  | .selfRefreshExitComplete | .bringUpComplete | .anchorReadComplete | .scanLineReadComplete
  | .pfwarnAsserted | .pfwarnNegated _ | .rstAsserted | .rstReleased _ | .powerOnComplete _ | .powerLoss
  | .frameEndsBeforeCommandByte _ => true

end Sys2Proof
end

