-- ==== Sys2Proof/Laws/PerInstr.lean ====
section
/-! SUPPORT. Per command: a term that spells no command of its row is refused in every state. -/

namespace Sys2Proof.Laws.Wf

open Sys2Proof.Machine

/-- An ill-formed term is refused as such. -/
def Statement (i : Instr) : Prop := i.wf = false → ∀ s, exec i s = .refused .illFormed

theorem frame_refused {d : Device} {row : FrameRow} {f : Frame} {st : Straps} (h : f.fits row = false) :
    d.frameOfRow row f st = .refused .illFormed := if_neg (by rw [h]; decide)

/-- A mark of row `k` is refused where its address does not name the row's request. -/
theorem mark_refused {s : State} {k : MarkKind} {m : MarkCycle} {eval : Ctx → Device → Device}
    (h : markNames k m.addr = false) : s.takeMark k m eval = .refused .illFormed := by
  unfold State.takeMark
  unfold markNames at h
  split
  · next x c e =>
    rw [e] at h
    exact if_neg fun hx => of_decide_eq_false h (congrArg some hx)
  · rfl

theorem hostRead (c : ReadCycle) : Statement (.hostRead c) := fun h => nomatch h
theorem hostReadAccessComplete : Statement .hostReadAccessComplete := fun h => nomatch h
theorem hostWrite (c : WriteCycle) : Statement (.hostWrite c) := fun h _ => if_neg (of_decide_eq_false h)
theorem openMark (m : MarkCycle) : Statement (.openMark m) := fun h _ => mark_refused h
theorem commitMark (m : MarkCycle) : Statement (.commitMark m) := fun h _ => mark_refused h
theorem abandonMark (m : MarkCycle) : Statement (.abandonMark m) := fun h _ => mark_refused h
theorem renewMark (m : MarkCycle) : Statement (.renewMark m) := fun h _ => mark_refused h
theorem queryMark (m : MarkCycle) : Statement (.queryMark m) := fun h _ => mark_refused h
theorem markBadTag (m : MarkCycle) : Statement (.markBadTag m) := fun h _ =>
  if_neg (by rw [show markNamesNothing m.addr = false from h]; decide)
theorem waitLimitExpiry : Statement .waitLimitExpiry := fun h => nomatch h
theorem leaseExpiry (c : Ctx) : Statement (.leaseExpiry c) := fun h => nomatch h
theorem oldLineReadComplete : Statement .oldLineReadComplete := fun h => nomatch h
theorem appendWriteComplete : Statement .appendWriteComplete := fun h => nomatch h
theorem dataWriteComplete : Statement .dataWriteComplete := fun h => nomatch h
theorem rollbackRecordReadComplete : Statement .rollbackRecordReadComplete := fun h => nomatch h
theorem restoreWriteComplete : Statement .restoreWriteComplete := fun h => nomatch h
theorem headerReadComplete : Statement .headerReadComplete := fun h => nomatch h
theorem anchorWriteComplete : Statement .anchorWriteComplete := fun h => nomatch h
theorem refreshTimerExpiry : Statement .refreshTimerExpiry := fun h => nomatch h
theorem refreshComplete : Statement .refreshComplete := fun h => nomatch h
theorem selfRefreshEntryComplete (st : Straps) : Statement (.selfRefreshEntryComplete st) := fun h => nomatch h
theorem selfRefreshExitComplete : Statement .selfRefreshExitComplete := fun h => nomatch h
theorem bringUpComplete : Statement .bringUpComplete := fun h => nomatch h
theorem anchorReadComplete : Statement .anchorReadComplete := fun h => nomatch h
theorem scanLineReadComplete : Statement .scanLineReadComplete := fun h => nomatch h
theorem pfwarnAsserted : Statement .pfwarnAsserted := fun h => nomatch h
theorem pfwarnNegated (st : Straps) : Statement (.pfwarnNegated st) := fun h => nomatch h
theorem rstAsserted : Statement .rstAsserted := fun h => nomatch h
theorem rstReleased (st : Straps) : Statement (.rstReleased st) := fun h => nomatch h
theorem powerOnComplete (st : Straps) : Statement (.powerOnComplete st) := fun h => nomatch h
theorem managementReadFrame (f : Frame) : Statement (.managementReadFrame f) := fun h _ =>
  if_neg (by rw [show f.fits .read = false from h]; decide)
theorem pendingTableWrite (f : Frame) : Statement (.pendingTableWrite f) := fun h s => congrArg s.onDevice (frame_refused h)
theorem activeTableWrite (f : Frame) : Statement (.activeTableWrite f) := fun h s => congrArg s.onDevice (frame_refused h)
theorem applyRequest (f : Frame) : Statement (.applyRequest f) := fun h s => congrArg s.onDevice (frame_refused h)
theorem formatCommand (f : Frame) : Statement (.formatCommand f) := fun h s => congrArg s.onDevice (frame_refused h)
theorem holdCommand (f : Frame) : Statement (.holdCommand f) := fun h s => congrArg s.onDevice (frame_refused h)
theorem releaseCommand (f : Frame) (st : Straps) : Statement (.releaseCommand f st) := fun h s => congrArg s.onDevice (frame_refused h)
theorem alertCausesClear (f : Frame) : Statement (.alertCausesClear f) := fun h s => congrArg s.onDevice (frame_refused h)
theorem alertMaskWrite (f : Frame) : Statement (.alertMaskWrite f) := fun h s => congrArg s.onDevice (frame_refused h)
theorem settingWrite (f : Frame) : Statement (.settingWrite f) := fun h s => congrArg s.onDevice (frame_refused h)
theorem powerLoss : Statement .powerLoss := fun h => nomatch h
theorem frameEndsBeforeCommandByte (b : Fin 8) : Statement (.frameEndsBeforeCommandByte b) := fun h => nomatch h

end Sys2Proof.Laws.Wf
end

