-- ==== Sys2Proof/Laws/Settle.lean ====
section
/-! SUPPORT. What a command's end does: when nothing is left to settle, and that the grant looks at the port only. -/

namespace Sys2Proof.Machine

theorem closeStart_of_not_starting {d : Device} (h : d.part.state ≠ .starting) : d.closeStart = d := by
  unfold Device.closeStart
  exact if_neg fun k => h k.1

theorem closeStart_of_list {d : Device} (h : d.rollback.list ≠ []) : d.closeStart = d := by
  unfold Device.closeStart
  exact if_neg fun k => h k.2.2.1

theorem tryEnter_of_not_holding {d : Device} (h : d.part.state ≠ .holding) : d.tryEnter = d := by
  unfold Device.tryEnter
  exact if_neg fun k => h k.1

theorem tryEnter_of_not_active {d : Device} (h : d.port.state ≠ .active) : d.tryEnter = d := by
  unfold Device.tryEnter
  exact if_neg fun k => h k.2.1

theorem tryEnter_of_busy {d : Device} (h : d.blocksIdle = false) : d.tryEnter = d := by
  unfold Device.tryEnter
  exact if_neg fun k => by rw [h] at k; exact absurd k.2.2.1 (by decide)

theorem settle_of_running {d : Device} (h : d.part.state = .running) : d.settle = d.grant := by
  unfold Device.settle
  rw [closeStart_of_not_starting (by rw [h]; decide), tryEnter_of_not_holding (by rw [h]; decide)]

theorem grant_of_not_active {d : Device} (h : d.port.state ≠ .active) : d.grant = d := by
  unfold Device.grant
  exact if_neg fun k => h k.1

theorem grant_of_busy {d : Device} (h : d.port.inFlight ≠ none) : d.grant = d := by
  unfold Device.grant
  exact if_neg fun k => h k.2

theorem bestRequest_none {n : Nat} {l : List Access} (h : bestRequest n l = none) : l = [] := by
  cases l with
  | nil => rfl
  | cons a as =>
    unfold bestRequest at h
    split at h
    · exact absurd h (by simp)
    · split at h <;> exact absurd h (by simp)

theorem bestRequest_mem {n : Nat} {l : List Access} {a : Access} (h : bestRequest n l = some a) : a ∈ l := by
  induction l generalizing a with
  | nil => simp [bestRequest] at h
  | cons b bs ih =>
    unfold bestRequest at h
    split at h
    · simp at h; simp [h]
    · next c hc => split at h <;> simp at h <;> subst h <;> simp [ih hc]

/-- No grant is possible: the port is not ACTIVE, an access is in flight, or nothing is requested. -/
def quietPort (p : MemPort) : Prop := p.state ≠ .active ∨ p.inFlight ≠ none ∨ (p.waiting = [] ∧ p.owed = 0)

theorem grant_eq_self_iff (d : Device) : d.grant = d ↔ quietPort d.port := by
  constructor
  · intro h
    by_cases ha : d.port.state = .active
    · by_cases hf : d.port.inFlight = none
      · right; right
        unfold Device.grant at h
        rw [if_pos ⟨ha, hf⟩] at h
        split at h
        · next hb =>
          have := bestRequest_none hb
          unfold MemPort.requests at this
          split at this
          · simp at this
          · exact ⟨this, by omega⟩
        · next a _ =>
          have hg : (d.granted a).port.inFlight = some a := rfl
          rw [h, hf] at hg
          simp at hg
      · exact .inr (.inl hf)
    · exact .inl ha
  · intro h
    rcases h with h | h | ⟨h, k⟩
    · exact grant_of_not_active h
    · exact grant_of_busy h
    · unfold Device.grant
      split
      · have : d.port.requests = [] := by unfold MemPort.requests; rw [k, h]; rfl
        rw [this]
        rfl
      · rfl

/-- Where no grant is possible, none is possible with the same port. -/
theorem grant_stable {d e : Device} (h : d.grant = d) (hp : e.port = d.port) : e.grant = e := by
  rw [grant_eq_self_iff] at h ⊢
  rw [hp]; exact h

theorem settled_parts {d : Device} (h : d.settle = d) : d.closeStart = d ∧ d.tryEnter = d ∧ d.grant = d := by
  have hc : d.closeStart = d := by
    by_cases k : d.journal.anchor = none
    · unfold Device.closeStart
      split
      · next hk =>
        exfalso
        have h1 : (d.issueAnchor .closing).journal.anchor ≠ none := by
          simp [Device.issueAnchor, Device.request]
        have h2 : d.closeStart = d.issueAnchor .closing := by unfold Device.closeStart; rw [if_pos hk]
        have h3 : d.settle.journal.anchor = (d.issueAnchor .closing).journal.anchor := by
          unfold Device.settle
          rw [h2]
          have f1 := grant_frame (Device.tryEnter (d.issueAnchor .closing)) .journal (by decide)
          have : (Device.tryEnter (d.issueAnchor .closing)).journal = (d.issueAnchor .closing).journal := by
            unfold Device.tryEnter Device.closeBanks
            split
            · split <;> rfl
            · rfl
          simp only [sameBlock] at f1
          rw [f1, this]
        rw [h, k] at h3
        exact h1 h3.symm
      · rfl
    · unfold Device.closeStart
      exact if_neg fun x => k x.2.2.2.2.2
  have ht : d.tryEnter = d := by
    unfold Device.tryEnter
    split
    · next hk =>
      exfalso
      have h2 : d.settle.port.state = .entering := by
        unfold Device.settle
        rw [hc]
        have : d.tryEnter.port.state = .entering := by
          unfold Device.tryEnter
          rw [if_pos hk]
          unfold Device.closeBanks
          split <;> rfl
        rw [grant_of_not_active (by rw [this]; decide)]
        exact this
      rw [h, hk.2.1] at h2
      exact absurd h2 (by decide)
    · rfl
  refine ⟨hc, ht, ?_⟩
  have : d.settle = d.grant := by unfold Device.settle; rw [hc, ht]
  rw [← this]; exact h

theorem SettledInv.grant {s : State} (h : SettledInv s) : s.dev.grant = s.dev := (settled_parts h.1).2.2

/-- In RUNNING nothing is left to settle when the port stands as in a settled state. -/
theorem SettledInv.settle_running {s : State} (h : SettledInv s) {e : Device} (hr : e.part.state = .running)
    (hp : e.port = s.dev.port) : e.settle = e := by
  rw [settle_of_running hr]; exact grant_stable h.grant hp

theorem closeStart_congr {d e : Device} (h : d.closeStart = d) (hp : e.part.state = d.part.state)
    (hh : e.part.phase = d.part.phase) (hr : e.rollback.list = d.rollback.list) (hj : e.journal = d.journal) :
    e.closeStart = e := by
  unfold Device.closeStart
  split
  · next hk =>
    rw [hp, hh, hr, hj] at hk
    have : d.issueAnchor .closing = d := by unfold Device.closeStart at h; rw [if_pos hk] at h; exact h
    have h1 : (d.issueAnchor .closing).journal.anchor ≠ none := by simp [Device.issueAnchor, Device.request]
    rw [this] at h1
    exact absurd hk.2.2.2.2.2 h1
  · rfl

theorem tryEnter_congr {d e : Device} (h : d.tryEnter = d) (hs : e.part.state = d.part.state)
    (hb : e.blocksIdle = d.blocksIdle) (hp : e.port = d.port) : e.tryEnter = e := by
  have hr : e.requestersIdle = d.requestersIdle := by unfold Device.requestersIdle; rw [hp]
  unfold Device.tryEnter
  split
  · next hk =>
    rw [hs, hb, hp, hr] at hk
    exfalso
    have : d.tryEnter.port.state = .entering := by
      unfold Device.tryEnter
      rw [if_pos hk]
      unfold Device.closeBanks
      split <;> rfl
    rw [h, hk.2.1] at this
    exact absurd this (by decide)
  · rfl

/-- Nothing is left to settle in a device that agrees with a settled one in what the end of a command looks at. -/
theorem settle_congr {d e : Device} (h : d.settle = d) (hs : e.part.state = d.part.state)
    (hh : e.part.phase = d.part.phase) (hr : e.rollback = d.rollback) (hj : e.journal = d.journal)
    (hm : (e.host.mode = .idle ↔ d.host.mode = .idle)) (hq : e.queue = d.queue) (he : e.engine = d.engine)
    (hp : e.port = d.port) : e.settle = e := by
  obtain ⟨h1, h2, h3⟩ := settled_parts h
  have hb : e.blocksIdle = d.blocksIdle := by
    unfold Device.blocksIdle
    rw [hq, he, hr, hj]
    congr 7
    exact decide_eq_decide.mpr hm
  unfold Device.settle
  rw [closeStart_congr h1 hs hh (by rw [hr]) hj, tryEnter_congr h2 hs hb hp, grant_stable h3 hp]

end Sys2Proof.Machine
end

