-- ==== Sys2Proof/Tests/Slice0.lean ====
section
/-! SUPPORT. Tests: ill-formed terms that the check refuses, values that the spec writes out, and for each statement that
has premises a state and operands that meet them. -/

namespace Sys2Proof.Tests

open Sys2Proof.Machine

/-! ### Ill-formed terms -/

def writeFrame (item : Byte) (v : Word) : Frame :=
  { bytes := [0x80, 0, item] ++ wordBytes v, extraBits := 0, ended := true }
def writeFrame2 (item : Byte) (v w : Word) : Frame :=
  { bytes := [0x90, 0, item] ++ wordBytes v ++ wordBytes w, extraBits := 0, ended := true }
def readFrame (item : Byte) : Frame := { bytes := [0, 0, item, 0, 0, 0, 0], extraBits := 0, ended := true }

theorem test_wf_write_data :
    (Instr.hostWrite { addr := 0, blen := .four, lanes := 15, ctxLines := 0, mark := false, data := [1, 2] }).wf = false
    ∧ (Instr.hostWrite { addr := 0, blen := .one, lanes := 15, ctxLines := 0, mark := false, data := [1] }).wf = true := by
  decide
/-- A MARK cycle at an address. -/
def mark (addr : Word) : MarkCycle := { addr := addr, blen := .one, lanes := 15, ctxLines := 0 }

theorem test_wf_mark : (Instr.markBadTag (mark 0x101)).wf = false ∧ (Instr.markBadTag (mark 0x105)).wf = true
    ∧ (Instr.markBadTag (mark 0x601)).wf = true := by decide
theorem test_wf_marks : (Instr.openMark (mark 0x201)).wf = false ∧ (Instr.openMark (mark 0x104)).wf = true
    ∧ (Instr.commitMark (mark 0x301)).wf = false ∧ (Instr.commitMark (mark 0x201)).wf = true
    ∧ (Instr.abandonMark (mark 0x101)).wf = false ∧ (Instr.abandonMark (mark 0x301)).wf = true
    ∧ (Instr.renewMark (mark 0x501)).wf = false ∧ (Instr.renewMark (mark 0x401)).wf = true
    ∧ (Instr.queryMark (mark 0x505)).wf = false ∧ (Instr.queryMark (mark 0x504)).wf = true := by decide
/-- A frame in progress may become one of a row of its direction. -/
theorem test_wf_in_progress :
    let f : Frame := { bytes := [0x80], extraBits := 3, ended := false }
    (Instr.managementReadFrame f).wf = false ∧ (Instr.applyRequest f).wf = true ∧ (Instr.holdCommand f).wf = true := by
  decide
theorem test_wf_read_frame : (Instr.managementReadFrame (writeFrame 0x70 1)).wf = false
    ∧ (Instr.managementReadFrame (readFrame 0x70)).wf = true := by decide
theorem test_wf_pending : (Instr.pendingTableWrite (writeFrame 0x30 0)).wf = false
    ∧ (Instr.pendingTableWrite (writeFrame 0x2F 0)).wf = true := by decide
theorem test_wf_active : (Instr.activeTableWrite (writeFrame 0x2F 0)).wf = false
    ∧ (Instr.activeTableWrite (writeFrame 0x3F 0)).wf = true := by decide
theorem test_wf_apply : (Instr.applyRequest (writeFrame 0x41 1)).wf = false
    ∧ (Instr.applyRequest (writeFrame 0x40 1)).wf = true := by decide
theorem test_wf_format : (Instr.formatCommand (writeFrame 0x60 2)).wf = false
    ∧ (Instr.formatCommand (writeFrame 0x60 1)).wf = true := by decide
theorem test_wf_hold : (Instr.holdCommand (writeFrame 0x60 3)).wf = false
    ∧ (Instr.holdCommand (writeFrame 0x60 2)).wf = true := by decide
theorem test_wf_release : (Instr.releaseCommand (writeFrame 0x60 1) ⟨0, 0⟩).wf = false
    ∧ (Instr.releaseCommand (writeFrame 0x60 3) ⟨0, 0⟩).wf = true := by decide
theorem test_wf_causes : (Instr.alertCausesClear (writeFrame 0x71 1)).wf = false
    ∧ (Instr.alertCausesClear (writeFrame 0x70 1)).wf = true := by decide
theorem test_wf_mask : (Instr.alertMaskWrite (writeFrame 0x70 1)).wf = false
    ∧ (Instr.alertMaskWrite (writeFrame 0x71 1)).wf = true := by decide
theorem test_wf_setting : (Instr.settingWrite (writeFrame 0x40 1)).wf = false
    ∧ (Instr.settingWrite (writeFrame 0x50 1)).wf = true ∧ (Instr.settingWrite (writeFrame 0x60 7)).wf = true := by decide

/-! ### Values that the spec writes out -/

/-- MSEL 1 and JSEL 2. -/
def straps : Straps := { msel := 1, jsel := 2 }

theorem test_geometry : journalBase straps = 0x7C00000 ∧ ringAddr straps 0 = 0x7C00020
    ∧ capacity straps = 0x8000000 ∧ ringLength straps = 1048568 := by decide
theorem test_ring_lengths : (List.range 4).map (fun j => ringLength { msel := 0, jsel := BitVec.ofNat 2 j })
    = [65528, 262136, 1048568, 4194296] := by decide

theorem test_burst_orders :
    beatWords 0x18 .four .sequential = [6, 7, 4, 5] ∧ beatWords 0x18 .four .interleaved = [6, 7, 4, 5]
    ∧ beatWords 0x0C .eight .sequential = [3, 4, 5, 6, 7, 0, 1, 2]
    ∧ beatWords 0x0C .eight .interleaved = [3, 2, 1, 0, 7, 6, 5, 4]
    ∧ beatWords 0x14 .one .interleaved = [5] := by decide

/-- Replies of the worked sequences: instance 0120h of a context. -/
def entry (st : CtxState) (o : FinishOutcome) (owned : Nat) : ContextEntry :=
  { ContextEntry.cleared with state := st, inst := 0x120, outcome := o, owned := owned }

theorem test_reply_words : replyWord .opened (entry .opened .none 0) = 0x12000120
    ∧ replyWord .committed (entry .free .committed 0) = 0x20010120
    ∧ replyWord .pending (entry .closing .none 5) = 0x36050120
    ∧ replyWord .status (entry .closing .none 5) = 0xA6050120
    ∧ replyWord .busy (entry .closing .none 5) = 0x66050120
    ∧ replyWord .status (entry .free .committed 0) = 0xA0010120 := by decide

theorem test_response_codes : [Rsp.okay, .outside, .protectedArea, .readonly, .conflict, .untagged, .badTag, .state,
    .noRoom, .timeout, .notReady, .held].map Rsp.code = List.range 12 := by decide

theorem test_crc8_register : crc8 [] = 0xFF ∧ crc8 [0xFF] = 0 := by decide
/-- The check value of the generator x^8 + x^5 + x^4 + 1 from FFh, over the digits 1 to 9 (R105); a register of 01h leaves
the generator's own lower terms. -/
theorem test_crc8_polynomial : crc8 [0x31, 0x32, 0x33, 0x34, 0x35, 0x36, 0x37, 0x38, 0x39] = 0xF7 ∧ crc8 [0xFE] = 0x31
    ∧ timesGenerator 1 = 0x131 := by decide +kernel

/-! ### States -/

/-- A running block, all idle, the journal formatted and its head at `head`. -/
def running (head : Nat) : Device :=
  let d := Device.unstarted { cells := [], lost := none } false false 0
  { d with
    host := { d.host with mode := .idle }
    engine := .idle
    rollback := { d.rollback with state := .idle }
    regions := { d.regions with active := Vector.ofFn fun i =>
      if i = 0 then { base := 0, size := 16, mode := 1, view := 1 }
      else if i = 1 then { base := 16, size := 16, mode := 2, view := 0 }
      else if i = 2 then { base := 32, size := 16, mode := 3, view := 0 } else RegionEntry.unused }
    journal := { d.journal with head := head, liveTail := head, anchoredTail := head, nextSeq := 5, nextInst := 7
                                cond := .valid }
    port := { d.port with state := .active, timer := { running := true, interval := 12, elapsed := 3 } }
    part := { d.part with state := .running, powered := true, broughtUp := true, straps := straps }
    mgmt := { d.mgmt with frame := .idle } }

/-- The state over a device, with no command waiting. -/
def stateOf (d : Device) : State := { pending := [], dev := d }

/-- A context that holds instance 3 in state `st`. -/
def holding (st : CtxState) (d : Device) : Device :=
  d.modifyCtx 0 fun x => { x with state := st, inst := 3, newest := some 50
                                  lease := { running := true, lengthMs := 2000, elapsed := 9 } }

/-- Line 0 is owned by context 1 with word 2 logged at position 56. -/
def owning (d : Device) : Device :=
  { d with own := [{ line := 0, ctx := 0, inst := 3
                     words := (Vector.replicate 8 none).set 2 (some (.position 56)) }] }

/-- A queue of `n` PLAIN entries for line 64 at a busy engine. -/
def queued (n : Nat) (d : Device) : Device :=
  { d with queue := List.replicate n (.plain { line := 64, words := [] }), engine := .data }

/-- The access `a` is in flight. -/
def flying (a : Access) (d : Device) : Device := { d with port := { d.port with inFlight := some a } }

def run : State := stateOf (running 100)

def aRead (addr : Word) (lines : BitVec 3) : ReadCycle := { addr := addr, blen := .four, lanes := 15, ctxLines := lines }
def aWrite (addr : Word) (lines : BitVec 3) : WriteCycle :=
  { addr := addr, blen := .one, lanes := 15, ctxLines := lines, mark := false, data := [0xAB] }

theorem run_evaluates : run.evaluates := by unfold State.evaluates; decide
/-- A frame that begins is taken in every state but STOPPED. -/
theorem run_takes (f : Frame) : run.takes f := ⟨by decide, rfl⟩
theorem run_settled : SettledInv run := by unfold SettledInv; decide

/-! ### A step or two -/

/-- HOST_READ_ACCESS_COMPLETE returns the words of the line in beat order. -/
theorem test_read_returns :
    let d := { flying (.read .host 0) (running 100) with
      dram := Memory.write { cells := [], lost := none } 8 0x5A
      host := { mode := .reading { cycle := aRead 8 0, timer := none, sources := [8, 12, 0, 4], todo := [0], got := [] }
                answer := none, refusal := RefusalRecord.empty } }
    (match exec .hostReadAccessComplete (stateOf d) with
      | .next t => t.dev.host.answer
      | _ => none) = some { code := .okay, data := [0x5A, 0, 0, 0] } := by decide

/-- A single-beat PLAIN write reaches the lanes of its word only. -/
theorem test_data_write_lanes :
    let w : LineWrite := { line := 64, words := [{ pos := 1, lanes := 2, data := 0x11223344 }] }
    let d := { flying (.write .data w) (running 100) with queue := [.plain w], engine := .data }
    (match exec .dataWriteComplete (stateOf d) with
      | .next t => t.dev.dram.cells
      | _ => []) = [(69, 0x33)] := by decide

theorem test_time_runs_the_refresh_timer :
    (match step run with
      | .next t => t.dev.port.timer.elapsed
      | _ => 0) = 4 := by decide

/-- A READ that waited is in READING, 75 µs after its wait began. -/
def readingLimited (d : Device) : Device :=
  { d with host := { d.host with mode := .reading { cycle := aRead 8 0, timer := some { limit := 100, elapsed := 150 }
                                                    sources := [8], todo := [0], got := [] } } }

/-! ### Premises met: the step and the invariants -/

/-- A step from a state over `d` answers a next state. -/
def goes (i : Instr) (s : State) : Bool :=
  match exec i s with
  | .next _ => true
  | _ => false

theorem witness_EmptyQueueLetsTimePass : run.pending = [] ∧ run.dev.port.timer.running = true
    ∧ (stateOf (holding .opened (running 100))).pending = []
    ∧ ((holding .opened (running 100)).ctx 0).lease.running = true
    ∧ (match (readingLimited (running 100)).host.mode with
      | .reading r => r.timer
      | _ => none) = some { limit := 100, elapsed := 150 } := by decide
theorem witness_ExecKeepsQueue : goes .pfwarnAsserted { run with pending := [.powerLoss] } = true := by decide

theorem witness_invariants : MemoryInv run ∧ BoundsInv run ∧ SettingsInv run ∧ StoppedInv run ∧ SettledInv run := by
  unfold MemoryInv BoundsInv SettingsInv StoppedInv SettledInv; decide
theorem witness_QueuedInv : QueuedInv run ∧ QueuedInv (stateOf (queued 8 (running 100))) := by
  unfold QueuedInv
  exact ⟨⟨by decide, fun h => absurd h (by decide)⟩, ⟨by decide, fun h => absurd h (by decide)⟩⟩
theorem witness_OwnershipInv : OwnershipInv run
    ∧ OwnershipInv (stateOf ((owning (holding .opened (running 100))).modifyCtx 0 fun x => { x with owned := 1 })) := by
  unfold OwnershipInv
  exact ⟨⟨by decide, by decide, fun h => absurd h (by decide)⟩, by decide, by decide, fun h => absurd h (by decide)⟩
theorem witness_RegionsInv : RegionsInv run := by unfold RegionsInv; decide
theorem witness_steps : goes .powerLoss run = true ∧ goes .rstAsserted run = true
    ∧ step { run with pending := [.powerLoss] } = exec .powerLoss run := by
  exact ⟨by decide, by decide, rfl⟩

theorem witness_MemoryChangesOnlyByWrites :
    goes .refreshTimerExpiry run = true
    ∧ goes .rstAsserted (stateOf (flying (.write .data { line := 64, words := [] }) (running 100))) = true := by decide

theorem witness_LineWriteSetsItsLanes :
    let w : LineWrite := { line := 64, words := [{ pos := 0, lanes := 1, data := 7 }, { pos := 7, lanes := 8, data := 7 }] }
    run.dev.dram.wf = true ∧ (w.words.map (·.pos)).Nodup ∧ (∀ x ∈ w.words, ∃ k : Fin 4, x.lanes.getLsbD k = true) := by decide

/-! ### Premises met: regions -/

theorem witness_ActiveTableIsReadOnly :
    run.takes (writeFrame 0x30 0) ∧ SettledInv run ∧ frameArrives (writeFrame 0x30 0) 1
    ∧ (writeFrame 0x30 0).row = .activeTable ∧ (writeFrame 0x3F 0).row = .activeTable
    ∧ frameArrives (writeFrame2 0x2F 0 0) 2 ∧ (writeFrame2 0x2F 0 0).row = .pendingTable
    ∧ 0x30 < (writeFrame2 0x2F 0 0).item + 2 := by
  unfold State.takes SettledInv frameArrives; decide
/-- The three causes of a change of the active table: an APPLY that waited, one taken now, a start. -/
theorem witness_ActiveTableIsReadOnly_changes :
    (let s := stateOf { running 100 with regions := { (running 100).regions with applyWaiting := true } }
     s.dev.quiet = true ∧ s.dev.regions.active ≠ s.dev.regions.pendingTable)
    ∧ (let f := writeFrame 0x40 1
       f.row = .apply ∧ run.takes f ∧ frameArrives f 1 ∧ f.word 0 = 1 ∧ run.dev.pendingValid = true
       ∧ run.dev.quiet = true ∧ goes (.applyRequest f) run = true)
    ∧ goes .powerLoss run = true := by unfold State.takes frameArrives; decide

theorem witness_PendingTableWritten :
    let f := writeFrame2 0x2E 0x00400002 0x101
    f.row = .pendingTable ∧ frameArrives f 2 ∧ f.item + 2 ≤ 0x30 ∧ run.dev.regions.applyWaiting = false
    ∧ f.item + 0 = 0x20 + 2 * 7 ∧ f.item + 1 = 0x21 + 2 * 7 := by unfold frameArrives; decide
theorem witness_PendingTableWritten_waiting :
    let s := stateOf { running 100 with regions := { (running 100).regions with applyWaiting := true } }
    s.dev.regions.applyWaiting = true ∧ SettledInv s ∧ s.dev.part.state ≠ .stopped := by unfold SettledInv; decide

/-- Pending tables: one fault of each kind, at its boundary. -/
def pendingOf (e : RegionEntry) (d : Device) : Device :=
  { d with regions := { d.regions with pendingTable := d.regions.pendingTable.set 0 e } }

theorem witness_ApplyByValidity_frame : (writeFrame 0x40 1).row = .apply ∧ frameArrives (writeFrame 0x40 1) 1
    ∧ (writeFrame 0x40 1).word 0 = 1 := by unfold frameArrives; decide
theorem witness_ApplyByValidity_faults :
    (pendingOf { base := 0, size := 1, mode := 4, view := 0 } (running 0)).pendingValid = false
    ∧ (pendingOf { base := 0, size := 1, mode := 3, view := 2 } (running 0)).pendingValid = false
    ∧ (pendingOf { base := 0x7BF, size := 2, mode := 3, view := 1 } (running 0)).pendingValid = false
    ∧ (pendingOf { base := 0x7BF, size := 1, mode := 3, view := 1 } (running 0)).pendingValid = true
    ∧ (pendingOf { base := 0xFFFF, size := 2, mode := 0, view := 0 } (running 0)).pendingValid = false
    ∧ (pendingOf { base := 0xFFFF, size := 0, mode := 15, view := 3 } (running 0)).pendingValid = true := by decide
theorem witness_ApplyByValidity_quiet : (∀ c, ((queued 2 (running 100)).ctx c).state = .free)
    ∧ (∀ e ∈ (queued 2 (running 100)).queue, ∃ w, e = .plain w)
    ∧ SettledInv (stateOf (queued 2 (running 100))) := by
  unfold SettledInv
  refine ⟨by decide, ?_, by decide⟩
  intro e he
  simp [queued] at he
  exact ⟨_, he⟩
theorem witness_ApplyByValidity_used : ((holding .opened (running 100)).ctx 0).state ≠ .free
    ∧ SettledInv (stateOf (holding .opened (running 100))) := by unfold SettledInv; decide

theorem witness_ClassifiedByAddress :
    (running 100).classify 0x8000000 = .outside ∧ (running 100).classify 0x7FFFFFF = .protectedArea
    ∧ (running 100).classify 0x7C00000 = .protectedArea ∧ (running 100).classify 0x7BFFFFF = .region .pass .current
    ∧ (running 100).classify 0 = .region .journal .before ∧ (running 100).classify 0xFFFFF = .region .journal .before
    ∧ (running 100).classify 0x100000 = .region .strict .current
    ∧ (running 100).classify 0x2FFFFF = .region .readonly .current
    ∧ (running 100).classify 0x300000 = .region .pass .current := by decide

/-! ### Premises met: host cycles -/

def inState (p : PartState) (d : Device) : Device := { d with part := { d.part with state := p } }
theorem held_takes (f : Frame) : (stateOf (inState .held (running 100))).takes f := ⟨by decide, rfl⟩

theorem witness_CyclesOutsideRunning :
    cycleZeros (.hostRead (aRead 0 0)) = some [0, 0, 0, 0] ∧ cycleZeros (.hostWrite (aWrite 0 0)) = some []
    ∧ cycleZeros (.queryMark (mark 0x504)) = some [0] ∧ cycleZeros (.markBadTag (mark 0)) = some [0]
    ∧ (inState .starting (running 100)).host.mode = .idle ∧ (inState .held (running 100)).part.state = .held
    ∧ State.reset.dev.host.mode ≠ .idle := by decide

theorem witness_BeatsFollowBurstOrder : (aWrite 0x1C 0).data.length = (aWrite 0x1C 0).blen.beats
    ∧ (aWrite 0x1C 0).lanes ≠ 0 ∧ BurstLen.eight.beats = 8
    ∧ [BurstLen.one, .four, .eight].map (blockBase 0x1B) = [6, 4, 0] ∧ (wordPos 0x3F).val = 7
    ∧ lineOf 0x3F = 0x20 := by decide

theorem witness_ReadRefused : run.evaluates ∧ SettledInv run ∧ 5 ≤ (5#3).toNat ∧ (4#3).toNat < 5
    ∧ capacity straps ≤ (0x8000000 : Word).toNat ∧ journalBase straps ≤ (0x7C00000 : Word).toNat
    ∧ (0x7FFFFFF : Word).toNat < capacity straps := by
  refine ⟨run_evaluates, run_settled, ?_⟩; decide

theorem witness_ReadWaits :
    let d := queued 1 (running 100)
    (stateOf d).evaluates ∧ SettledInv (stateOf d) ∧ d.classify 0x44 = .region .journal .before
    ∧ ∃ e ∈ d.queue, e.line? = some (lineOf (0x44 : Word).toNat) := by
  unfold State.evaluates SettledInv; decide
theorem witness_ReadWaits_owner :
    let d := owning (holding .closing (running 100))
    (stateOf d).evaluates ∧ SettledInv (stateOf d) ∧ (∀ x ∈ d.queue, x.line? ≠ some 0)
    ∧ (d.ownerOf 0).isSome = true ∧ (d.ctx 0).state = .closing ∧ ctxOfLines 2 ≠ some 0 ∧ ctxOfLines 0 ≠ some 0
    ∧ ((owning (holding .undoing (running 100))).ctx 0).state = .undoing := by
  unfold State.evaluates SettledInv; decide

theorem witness_ReadServedFromMemory :
    (∀ x ∈ run.dev.queue, x.line? ≠ some 0) ∧ run.dev.ownerOf 0 = none
    ∧ run.dev.classify 0x1F = .region .journal .before
    ∧ (let d := owning (holding .opened (running 100))
       SettledInv (stateOf d) ∧ (d.ownerOf 0).map (·.ctx) = some 0 ∧ (d.ctx 0).state = .opened
       ∧ ctxOfLines 1 = some 0) := by unfold SettledInv; decide

theorem witness_ReadServedFromImages :
    let d := owning (holding .opened (running 100))
    (stateOf d).evaluates ∧ SettledInv (stateOf d) ∧ d.classify 8 = .region .journal .before
    ∧ (∀ x ∈ d.queue, x.line? ≠ some 0) ∧ ctxOfLines 0 ≠ some 0 ∧ (d.ctx 0).state = .opened
    ∧ (d.own.map fun e => (List.finRange 8).map fun i => decide (e.words[i] = some .pending)) =
        [List.replicate 8 false] := by unfold State.evaluates SettledInv; decide

/-- A READ of two lines in hand. -/
def reading (todo : List Nat) (d : Device) : Device :=
  { d with host := { d.host with mode := .reading { cycle := aRead 8 0, timer := none, sources := [8, 12, 0, 0x7C00100], todo := todo
                                                    got := [] } } }

theorem witness_ReadAccessCompletes :
    let s := stateOf (flying (.read .host 0) (reading [0] (running 100)))
    s.inFlight (.read .host 0) 0 ∧ s.dev.part.state = .running
    ∧ (match s.dev.host.mode with
      | .reading r => decide (r.todo = [0] ∧ r.sources[0]? = some 8 ∧ lineOf 8 = 0 ∧ 8 % 4 = 0)
      | _ => false) = true
    ∧ (stateOf (flying (.read .host 0) (reading [0, 0x7C00100] (running 100)))).inFlight (.read .host 0) 0 := by
  unfold State.inFlight; decide

theorem witness_WriteRefused :
    (aWrite 0 0).data.length = (aWrite 0 0).blen.beats ∧ run.dev.classify 0x200000 = .region .readonly .current
    ∧ run.dev.classify 0x100000 = .region .strict .current ∧ run.dev.ownerOf 0x100000 = none
    ∧ ctxOfLines 4 = some 3 ∧ (run.dev.ctx 3).state ≠ .opened
    ∧ (let d := owning (holding .spoiled (running 100))
       (stateOf d).evaluates ∧ SettledInv (stateOf d) ∧ (d.ownerOf 0).isSome = true ∧ (d.ctx 0).state = .spoiled
       ∧ ctxOfLines 2 ≠ some 0) := by
  unfold State.evaluates SettledInv; decide

theorem witness_WriteNotAdmitted :
    (let d := queued 8 (holding .opened (running 100))
     (stateOf d).evaluates ∧ SettledInv (stateOf d) ∧ 8 ≤ d.queue.length ∧ (14 : Int) ≤ d.free
     ∧ ctxOfLines 1 = some 0 ∧ (d.ctx 0).state = .opened ∧ d.ownerOf 0 = none ∧ d.own.length < 128
     ∧ d.classify 0 = .region .journal .before ∧ d.classify 0x300000 = .region .pass .current)
    ∧ (let d := owning (holding .undoing (running 100))
       (d.ownerOf 0).isSome = true ∧ (d.ctx 0).state ≠ .opened ∧ (d.ctx 0).state ≠ .spoiled) := by
  unfold State.evaluates SettledInv; decide

/-- A journal so full that 13 words are free and nothing can be reclaimed. -/
def full (d : Device) : Device := { d with journal := { d.journal with reserved := 1048568 - 27 } }

theorem witness_WriteNotAdmitted_spoils :
    let d := full (holding .opened (running 100))
    (stateOf d).evaluates ∧ SettledInv (stateOf d) ∧ d.free < 14 ∧ d.free = 13 ∧ d.reclaimPossible = false
    ∧ (d.ctx 0).state = .opened ∧ ctxOfLines 1 = some 0 ∧ d.ownerOf 0 = none ∧ d.own.length < 128 := by
  unfold State.evaluates SettledInv; decide
/-- A COVERED write that meets a full queue with 13 words free: no needed word is left. -/
theorem witness_WriteNotAdmitted_covered :
    let d := full (owning (queued 8 (holding .opened (running 100))))
    let s := stateOf d
    s.evaluates ∧ SettledInv s ∧ 8 ≤ d.queue.length ∧ d.free = 13 ∧ (d.ctx 0).state = .opened
    ∧ (d.ownerOf 0).map (fun e => (e.ctx, e.logged)) = some (0, 4)
    ∧ wordSetOf (writtenWords (aWrite 8 1) .sequential) &&& ~~~ 4#8 = 0
    ∧ (match exec (.hostWrite (aWrite 8 1)) s with
      | .next t => some t
      | _ => none) = some (s.waitingOn (.write (aWrite 8 1) .sequential) .queueSpace) := by
  unfold State.evaluates SettledInv
  decide +kernel
/-- An ownership table of `n` entries for line 32. -/
def crowded (n : Nat) (d : Device) : Device :=
  { d with own := List.replicate n { line := 32, ctx := 0, inst := 3, words := Vector.replicate 8 none } }

theorem witness_WriteNotAdmitted_table :
    let d := crowded 128 (holding .opened (running 100))
    128 ≤ d.own.length ∧ d.ownerOf 0 = none := by decide +kernel

theorem witness_PlainWriteAdmitted : run.evaluates ∧ SettledInv run
    ∧ run.dev.classify 0x300000 = .region .pass .current ∧ run.dev.queue.length < 8 ∧ run.dev.engine = .idle
    ∧ SettledInv (stateOf (queued 7 (running 100))) ∧ (queued 7 (running 100)).engine ≠ .idle := by
  refine ⟨run_evaluates, run_settled, ?_⟩; unfold SettledInv; decide

theorem witness_TaggedWriteAdmitted :
    let d := owning (holding .opened (running 100))
    (stateOf d).evaluates ∧ SettledInv (stateOf d) ∧ (14 : Int) ≤ d.free
    ∧ (d.ownerOf 0).map (fun e => (e.ctx, e.logged)) = some (0, 4) ∧ d.ownerOf 32 = none
    ∧ wordSetOf (writtenWords (aWrite 8 1) .sequential) &&& ~~~ 4#8 = 0
    ∧ wordSetOf (writtenWords (aWrite 12 1) .sequential) &&& ~~~ 4#8 ≠ 0 := by
  unfold State.evaluates SettledInv; decide

/-- A LOGGED entry of context 1 for words `needed` of line 0. -/
def loggedEntry (needed : WordSet) : QEntry := .logged { line := 0, words := [] } 0 3 needed
/-- The engine gathers behind a LOGGED head that needs word 1, and the port is busy. -/
def gathering (d : Device) : Device :=
  let g : Group := { inst := 3, ctx := 0, line := 0, members := 1, remaining := 1, union := 2, images := [] }
  { flying (.read .host 32) d with queue := [loggedEntry 2], engine := .gather g }
/-- A LOGGED write of word 3 joins the group; alone at an IDLE engine it is the group, fixed by the grant. -/
theorem witness_TaggedWriteAdmitted_gather :
    let d := owning (holding .opened (running 100))
    let engine := fun (d : Device) => match exec (.hostWrite (aWrite 12 1)) (stateOf d) with
      | .next t => some t.dev.engine
      | _ => none
    (stateOf (gathering d)).evaluates ∧ SettledInv (stateOf (gathering d))
    ∧ engine (gathering d) = some (.gather
        { inst := 3, ctx := 0, line := 0, members := 2, remaining := 2, union := 10, images := [] })
    ∧ engine d = some (.oldRead
        { inst := 3, ctx := 0, line := 0, members := 1, remaining := 1, union := 8, images := [] }) := by
  unfold State.evaluates SettledInv; decide
/-- Gathering stops at an entry whose words do not lie above, and at one of another kind (R90). -/
theorem test_gather_stops :
    (gatherGroup [loggedEntry 2, loggedEntry 4, loggedEntry 4, loggedEntry 8]).map (·.members) = some 2
    ∧ (gatherGroup [loggedEntry 2, .plain { line := 0, words := [] }, loggedEntry 8]).map (·.members) = some 1
    ∧ (gatherGroup [loggedEntry 2, loggedEntry 8, loggedEntry 4]).map (·.union) = some 10 := by decide

/-- 11 words free, and a finished record at the tail to reclaim. -/
def reclaimable (d : Device) : Device :=
  { d with journal := { d.journal with
      liveTail := 40, reserved := 1048568 - 85
      tailRec := some { kind := .openRec, ctx := some 3, inst := 1, seq := 2 }, anchoredTail := 40 } }

theorem witness_RoomWaitStartsReclaim :
    let d := reclaimable (holding .opened (running 100))
    (stateOf d).evaluates ∧ SettledInv (stateOf d) ∧ d.free = 11 ∧ d.reclaimPossible = true
    ∧ (d.ctx 1).state = .free ∧ d.regions.applyWaiting = false ∧ (d.ctx 0).state = .opened
    ∧ d.ownerOf 0 = none ∧ d.own.length < 128 ∧ markRequest 0x102 = some (.openKind, 1) := by
  unfold State.evaluates SettledInv; decide
theorem witness_reclaimRule : reclaimRule (reclaimable (holding .opened (running 100))) ∧ ¬ reclaimRule (running 100) :=
  ⟨(reclaimPossible_iff _).mp (by decide), fun h => absurd ((reclaimPossible_iff _).mpr h) (by decide)⟩
/-- The stages of a reclaim that a request meets. -/
theorem witness_RoomWaitStartsReclaim_stages :
    (Device.reclaimRequested (running 100) { (running 100).journal with reclaim := .awaitingAnchor }).reclaimAgain = true
    ∧ (Device.reclaimRequested (running 100)
        { (running 100).journal with pass := some { start := 100, words := [], expected := none } }).passAgain = true
    ∧ (Device.reclaimRequested (running 100) (running 100).journal).anchor = some { tail := 100, why := .forced } := by
  decide

/-! ### Premises met: marks and timers -/

theorem witness_marks : markRequest 0x104 = some (.openKind, 3) ∧ markRequest 0x201 = some (.commitKind, 0)
    ∧ markRequest 0x301 = some (.abandonKind, 0) ∧ markRequest 0x401 = some (.renewKind, 0)
    ∧ markRequest 0x504 = some (.queryKind, 3) ∧ markRequest 0x101 = some (.openKind, 0)
    ∧ markRequest 0xFFFFF8FC = none ∧ markRequest 0x604 = none ∧ markRequest 0x505 = none ∧ markRequest 0x500 = none := by
  decide
theorem witness_OpenAdmitted : run.evaluates ∧ SettledInv run ∧ (run.dev.ctx 3).state = .free
    ∧ run.dev.journal.cond = .valid ∧ run.dev.regions.applyWaiting = false ∧ (12 : Int) ≤ run.dev.free
    ∧ run.dev.queue.length < 8 := by
  refine ⟨run_evaluates, run_settled, ?_⟩; decide
theorem witness_MarksTurnedAway :
    (let d := holding .spoiled (full (running 100))
     (stateOf d).evaluates ∧ SettledInv (stateOf d) ∧ (d.ctx 0).state = .spoiled ∧ (d.ctx 1).state = .free)
    ∧ (let d := { running 100 with journal := { (running 100).journal with reserved := 1048568 - 25 } }
       SettledInv (stateOf d) ∧ d.free = 11 ∧ d.reclaimPossible = false)
    ∧ (let d := { running 100 with journal := Journal.cleared }
       SettledInv (stateOf d) ∧ d.journal.cond ≠ .valid)
    ∧ (let d := queued 8 (holding .opened (running 100))
       SettledInv (stateOf d) ∧ (12 : Int) ≤ d.free ∧ 8 ≤ d.queue.length ∧ (d.ctx 0).state = .opened)
    ∧ (0x0801 : Word).extractLsb' 8 3 = 0#3 ∧ (0x105 : Word).extractLsb' 0 3 = 5#3 := by
  unfold State.evaluates SettledInv; decide
theorem witness_CommitTaken :
    let d := holding .opened (running 100)
    (stateOf d).evaluates ∧ SettledInv (stateOf d) ∧ (d.ctx 0).state = .opened ∧ d.queue.length < 8 := by
  unfold State.evaluates SettledInv; decide
theorem witness_AbandonTaken :
    let d := holding .spoiled (running 100)
    (stateOf d).evaluates ∧ SettledInv (stateOf d) ∧ (d.ctx 0).state = .spoiled ∧ d.rollback.state = .idle
    ∧ d.rollback.list = [] ∧ (d.ctx 0).queued = 0 ∧ (d.ctx 0).newest = some 50 := by
  unfold State.evaluates SettledInv; decide
/-- The selection passes over context 1, which has an entry queued, and takes context 2 (R135). -/
theorem witness_AbandonTaken_passesOver :
    let d := (holding .undoing (queued 1 (running 100))).modifyCtx 0 fun x => { x with queued := 1 }
    let d1 := d.modifyCtx 1 fun x => { x with state := .opened, inst := 4, newest := some 70 }
    let d2 := { d1 with rollback := { d1.rollback with list := [{ ctx := 0, inst := 3, outcome := .abandoned }] } }
    (match exec (.abandonMark { addr := 0x302, blen := .one, lanes := 15, ctxLines := 0 }) (stateOf d2) with
      | .next t => t.dev.rollback.walk.map fun w => (w.ctx, w.pos)
      | _ => none) = some (1, 70) := by decide
theorem witness_RenewByState :
    (stateOf (holding .opened (running 100))).evaluates ∧ SettledInv (stateOf (holding .opened (running 100)))
    ∧ (run.dev.ctx 0).state = .free ∧ ((holding .undoing (running 100)).ctx 0).state = .undoing := by
  unfold State.evaluates SettledInv; decide
theorem witness_QueryByState : run.evaluates ∧ SettledInv run ∧ (readFrame 0x16).row = .read
    ∧ (readFrame 0x16).words = some 1 ∧ (readFrame 0x16).item = 0x10 + 2 * 3 ∧ 7 ≤ (readFrame 0x16).bytes.length
    ∧ SettledInv (stateOf (inState .held (running 100))) := by
  refine ⟨run_evaluates, run_settled, ?_⟩; unfold SettledInv; decide

/-- A cycle waits on `k`. -/
def waiting (k : WaitCond) (d : Device) : Device :=
  let w : Waiting := { cycle := .commitMark 0, cond := k, timer := { limit := 100, elapsed := 200 } }
  { d with host := { d.host with mode := .waiting w } }

theorem witness_TimersExpire :
    (let s := stateOf (waiting .queueSpace (queued 8 (running 100)))
     SettledInv s ∧ s.dev.part.state = .running)
    ∧ (let s := stateOf (waiting (.commitCompletion 0) (holding .closing (running 100)))
       SettledInv s ∧ s.dev.part.state = .running)
    ∧ (let d := holding .opened (running 100)
       SettledInv (stateOf d) ∧ (d.ctx 0).lease.running = true ∧ (d.ctx 0).state = .opened
       ∧ d.mgmt.settings.leaseAction = .report)
    ∧ (let d := holding .spoiled { running 100 with mgmt := { (running 100).mgmt with
          settings := { Settings.defaults with leaseAction := .revoke } } }
       SettledInv (stateOf d) ∧ (d.ctx 0).state = .spoiled ∧ d.mgmt.settings.leaseAction = .revoke)
    ∧ SettledInv (stateOf (readingLimited (running 100)))
    ∧ (run.dev.ctx 0).lease.running = false := by
  unfold SettledInv; decide

/-! ### Premises met: queue, records and rollback -/

def group : Group := { inst := 3, ctx := 0, line := 64, members := 2, remaining := 2, union := 0x81, images := [] }

/-- An append of `k` in hand, for context 1, with `n` writes left, the first one in flight. -/
def appending (k : RecKind) (n : Nat) (pad : Option Nat) (d : Device) : Device :=
  let w : LineWrite := { line := 0x7C001A0, words := [] }
  let a : Append := { who := .writeEngine, padLen := pad, pos := 100, seq := 5, writes := List.replicate n w
                      req := { kind := k, ctx := 0, inst := 3, byte1 := 2, line := 0, images := [], members := 2 } }
  flying (.write (.append .writeEngine) w) { d with journal := { d.journal with append := some a } }

theorem witness_OldLineReadCompletes :
    let s := stateOf (flying (.read .oldLine 64) { running 100 with engine := .oldRead group })
    s.inFlight (.read .oldLine 64) 64 ∧ s.notClosing ∧ s.dev.engine = .oldRead group
    ∧ s.dev.journal.append = none := by
  unfold State.inFlight State.notClosing; decide
/-- R108 at its boundaries: 14, 13, 6 and 5 words from the head to the ring end, for a record of 14 words. -/
theorem test_placement :
    let req : RecordReq := { kind := .before, ctx := 0, inst := 3, byte1 := 255, line := 64
                             images := List.replicate 8 0, members := 1 }
    let place := fun (head : Nat) =>
      let a := (running head).placedAppend .writeEngine req
      let j := (running head).placedJournal .writeEngine req
      (a.pos, a.padLen, j.head, j.endGap, j.liveTail)
    place 1048554 = (1048554, none, 1048554, 0, 1048554) ∧ place 1048555 = (1048555, some 13, 1048555, 0, 1048555)
    ∧ place 1048562 = (1048562, some 6, 1048562, 0, 1048562) ∧ place 1048563 = (0, none, 0, 5, 0) := by decide
/-- The placement is the model's. -/
theorem test_placement_is_beginAppend :
    let req : RecordReq := { kind := .commit, ctx := 0, inst := 3, byte1 := 0, line := 0, images := [], members := 0 }
    (List.map (fun head => ((holding .closing (running head)).beginAppend .writeEngine req).journal) [100, 1048563])
      = List.map (fun head => (holding .closing (running head)).placedJournal .writeEngine req) [100, 1048563] := by
  decide +kernel
theorem witness_AppendGoesOn :
    (let s := stateOf (appending .openRec 2 none (running 100))
     s.inFlight (.write (.append .writeEngine) { line := 0x7C001A0, words := [] }) 0x7C001A0 ∧ s.notClosing
     ∧ (s.dev.journal.append.map fun a => a.writes.length) = some 2)
    ∧ (let s := stateOf (appending .openRec 1 (some 6) (running 1048562))
       (s.dev.journal.append.map fun a => (a.writes.length, a.padLen)) = some (1, some 6)) := by
  unfold State.inFlight State.notClosing; decide
theorem witness_RecordWriteCompletes :
    (let d := appending .openRec 1 none { running 100 with queue := [.openEntry 0 3], engine := .openRecord }
     (stateOf d).inFlight (.write (.append .writeEngine) { line := 0x7C001A0, words := [] }) 0x7C001A0
     ∧ d.journal.appendWaiting = none
     ∧ (d.journal.append.map fun a => (a.writes.length, a.padLen, a.req.kind)) = some (1, none, .openRec))
    ∧ (appending .before 1 none { running 100 with engine := .beforeRecord group }).engine = .beforeRecord group
    ∧ (appending .commit 1 none { running 100 with queue := [.commitEntry 0 3] }).queue = [.commitEntry 0 3]
    ∧ ((appending .done 1 none (running 100)).journal.append.map fun a => a.req.kind) = some .done := by
  unfold State.inFlight; decide
/-- A DONE waits behind the OPEN record; the mask's words get the positions of their images. -/
theorem witness_RecordWriteCompletes_waiting :
    (let d := appending .openRec 1 none { running 100 with
        queue := [.openEntry 0 3, .commitEntry 1 4], engine := .openRecord }
     let d1 : Device := { d with journal := { d.journal with
        appendWaiting := some (.rollbackEngine, { kind := .done, ctx := 2, inst := 1, byte1 := 2, line := 0, images := []
                                                  members := 0 }) } }
     goes .appendWriteComplete (stateOf d1) = true)
    ∧ (let e : OwnEntry := { line := 0, ctx := 0, inst := 3, words := Vector.replicate 8 none }
       ((e.located 0x81 100).words.toList) = [some (.position 106), none, none, none, none, none, none,
         some (.position 107)]) := by decide
theorem witness_DataWriteCompletes :
    let w : LineWrite := { line := 64, words := [] }
    let s := stateOf (flying (.write .data w) { queued 2 (running 100) with engine := .groupData group })
    s.inFlight (.write .data w) w.line ∧ s.dev.queue.length = 2 ∧ 1 < group.remaining := by
  unfold State.inFlight; decide
/-- What the engine takes up for each kind of head when the entry before it has left. -/
theorem witness_DataWriteCompletes_next :
    let w : LineWrite := { line := 64, words := [] }
    let next := fun (rest : List QEntry) =>
      match exec .dataWriteComplete (stateOf (flying (.write .data w)
          { holding .opened (running 100) with engine := .data, queue := .plain w :: rest })) with
      | .next t => some (t.dev.engine, t.dev.port.inFlight.bind (·.line?))
      | _ => none
    let g : Group := { inst := 3, ctx := 0, line := 0, members := 2, remaining := 2, union := 6, images := [] }
    next [] = some (.idle, none) ∧ next [.plain w] = some (.data, some 64) ∧ next [.covered w 0 3] = some (.data, some 64)
    ∧ next [.openEntry 1 4] = some (.openRecord, some 0x7C001A0)
    ∧ next [.commitEntry 0 3] = some (.committing, some 0x7C001A0)
    ∧ next [loggedEntry 2, loggedEntry 4] = some (.oldRead g, some 0) := by decide +kernel
theorem witness_WaitingCycleSeesTheStep :
    (waiting .journalRoom (running 100)).quiet = true ∧ endedByRoom .journalRoom = true
    ∧ endedByRoom .queueSpace = false
    ∧ endedByRecord .openRec 3 false .queueSpace = true ∧ endedByRecord .done 3 false .queueSpace = false
    ∧ endedByRecord .done 3 false (.ownersRelease 3) = true ∧ endedByRecord .done 3 false (.ownersRelease 4) = false
    ∧ endedByRecord .before 3 true .journalRoom = true ∧ endedByRecord .before 3 false .journalRoom = false
    ∧ endedByDeparture (.plain { line := 64, words := [] }) (.readAfterWrite 64) = true
    ∧ endedByDeparture (.plain { line := 64, words := [] }) (.readAfterWrite 96) = false
    ∧ (waiting .journalRoom (running 100)).regions.applyWaiting = false := by decide
/-- An APPLY and a cycle that wait for the same step; and cycles that are evaluated as they arrive. -/
theorem witness_WaitingCycleSeesTheStep_both :
    (let d := waiting .queueSpace (running 100)
     let d1 := { d with regions := { d.regions with applyWaiting := true } }
     d1.quiet = true ∧ d1.wakes (endedByDeparture (.plain { line := 64, words := [] })) = true)
    ∧ run.evaluates ∧ (aWrite 0 0).data.length = (aWrite 0 0).blen.beats
    ∧ markRequest (mark 0x101).addr = some (.openKind, 0) ∧ markRequest (mark 0x201).addr = some (.commitKind, 0) := by
  unfold State.evaluates; decide

theorem witness_FormatsReadBack : 5 < run.dev.ring ∧ run.dev.ring < 2 ^ 32 ∧ (14 : Nat) < 2 ^ 32 := by decide
theorem witness_RecordLandsInTheRing : run.dev.dram.wf = true ∧ (List.replicate 6 (0 : Word)).length = 6
    ∧ (1048568 - 14) + 6 + (List.replicate 8 (0 : Word)).length ≤ ringLength straps := by decide

/-- A walk of context 1 in READ over a line whose word 4 begins a header of kind `k`. -/
def walking (k : Byte) (d : Device) : Device :=
  let ws : List Word := [headerWord0 k 1 0x81 0, 8, 4, 3, 64, 40]
  flying (.read .walk 0x7C001A0) { d with
    rollback := { list := [{ ctx := 0, inst := 3, outcome := .abandoned }], state := .read
                  walk := some { ctx := 0, inst := 3, outcome := .abandoned, pos := 90, words := ws } } }

theorem witness_WalkRestoresRecords :
    (let s := stateOf (walking 2 (running 100))
     s.inFlight (.read .walk 0x7C001A0) 0x7C001A0 ∧ s.notClosing ∧ s.dev.rollback.state = .read
     ∧ (s.dev.rollback.walk.map fun w => (w.words.length, (w.words.getD 0 0).extractLsb' 24 8, (w.words.getD 1 0).toNat))
         = some (6, 2, 8))
    ∧ (let s := stateOf (walking 1 (inState .holding (running 100)))
       s.dev.part.state = .holding ∧ s.notClosing)
    ∧ (let x : LineWrite := { line := 64, words := [] }
       let s := stateOf (flying (.write .restore x) { walking 2 (running 100) with
         rollback := { (walking 2 (running 100)).rollback with state := .restore } })
       s.inFlight (.write .restore x) x.line ∧ s.dev.rollback.state = .restore) := by
  unfold State.inFlight State.notClosing; decide

/-- A pass whose header words are `ws`. -/
def passing (ws : List Word) (d : Device) : Device :=
  flying (.read .header 0x7C001A0) { d with journal := { d.journal with pass := some { start := 100, words := ws, expected := none } } }

theorem witness_HeaderReadCompletes :
    let hd := fun (c : Byte) => [headerWord0 1 c 0 0, 6, 4, (3 : Word)]
    let d := passing (hd 1) (holding .opened { running 100 with journal := { (running 100).journal with head := 112 } })
    (stateOf d).inFlight (.read .header 0x7C001A0) 0x7C001A0
    ∧ (headerIdentity (hd 1)).map d.finished = some false ∧ (headerIdentity (hd 2)).map d.finished = some true
    ∧ headerIdentity [headerWord0 5 0 0 0, 6, 4, 0] = some { kind := .pad, ctx := none, inst := 0, seq := 4 }
    ∧ ringAdvance d.ring 100 6 = 106 ∧ 106 ≠ d.journal.head ∧ 6 ≤ d.ring - 106
    ∧ ringAdvance d.ring 106 6 = d.journal.head := by
  unfold State.inFlight; decide
/-- The headers of witness_HeaderReadCompletes in R104's words and their records in R113's. -/
theorem witness_HeaderReadCompletes_records :
    let d := holding .opened (running 100)
    let t : TailId := { kind := .openRec, ctx := some 0, inst := 3, seq := 4 }
    headerNames [headerWord0 1 1 0 0, 6, 4, 3] t ∧ ¬ recordFinished d t ∧ recordFinished d { t with ctx := some 1 }
    ∧ recordFinished d { t with inst := 2 } ∧ recordFinished d { t with kind := .pad, ctx := none } :=
  ⟨(headerIdentity_iff _ _).mp (by decide), fun h => absurd ((finished_iff _ _).mpr h) (by decide),
    (finished_iff _ _).mp (by decide), (finished_iff _ _).mp (by decide), (finished_iff _ _).mp (by decide)⟩
/-- A pass that has retired a record expects the number behind it, and a forced anchor write that was pending and is
issued in that pass carries it. -/
theorem test_anchor_in_a_pass :
    let p : Pass := { start := 100, words := [headerWord0 1 2 0 0, 6, 4, 3], expected := none }
    let d : Device := { running 112 with journal := { (running 112).journal with
      liveTail := 100, pass := some p, tailRec := some { kind := .openRec, ctx := some 1, inst := 3, seq := 4 } } }
    let e := d.headerRead p { kind := .openRec, ctx := some 1, inst := 3, seq := 4 }
    (e.journal.liveTail, e.journal.pass.bind (·.expected)) = (106, some 5) ∧ d.journal.tailSeq = 4
    ∧ e.journal.tailSeq = 5
    ∧ (let f := flying (.write (.anchor false) { line := 0x7C00000, words := [] }) { e with journal := { e.journal with
          anchor := some { tail := 100, why := .unforced }, forcedPending := true, reclaim := .awaitingAnchor } }
       (match exec .anchorWriteComplete (stateOf f) with
         | .next t => t.dev.port.inFlight
         | _ => none) = some (.write (.anchor true) (f.anchorLine 106 5 7))) := by decide +kernel
/-- A pass stops: within a reclaim, with the debt above the setting, at it, and behind the ring end. -/
theorem witness_HeaderReadCompletes_stops :
    let d := running 112
    (d.stoppedPass { d.journal with reclaim := .inPass } 100 112 none).anchor = some { tail := 112, why := .forced }
    ∧ (d.stoppedPass { d.journal with debt := 2 } 100 112 none).anchor = some { tail := 112, why := .unforced }
    ∧ (d.stoppedPass { d.journal with debt := 1 } 100 112 none).anchor = none
    ∧ (d.stoppedPass { d.journal with debt := 255 } 100 112 none).debt = 255
    ∧ (d.begunPass { d.journal with liveTail := 1048563 } 100 none).liveTail = 0
    ∧ (d.begunPass { d.journal with liveTail := 1048562 } 100 none).liveTail = 1048562
    ∧ (d.closed d.journal) = d.journal := by decide

/-- An anchor write for `u` in flight. -/
def anchoring (u : AnchorUse) (d : Device) : Device :=
  flying (.write (.anchor true) { line := 0x7C00000, words := [] })
    { d with journal := { d.journal with anchor := some { tail := 100, why := u } } }

theorem witness_AnchorWriteCompletes :
    let s := stateOf (anchoring .closing (inState .starting (running 100)))
    s.inFlight (.write (.anchor true) { line := 0x7C00000, words := [] }) 0x7C00000
    ∧ s.dev.journal.anchor = some { tail := 100, why := .closing } ∧ s.dev.journal.formatting = false
    ∧ s.dev.journal.forcedPending = false ∧ s.dev.part.state = .starting
    ∧ ((anchoring .forced (running 100)).journal.anchor.map (·.why)) = some .forced
    ∧ ((anchoring .unforced (running 100)).journal.anchor.map (·.why)) = some .unforced := by
  unfold State.inFlight; decide
/-- An anchor write completes with a FORMAT behind it, a forced request behind it, and a further reclaim behind it. -/
theorem witness_AnchorWriteCompletes_behind :
    let after := fun (u : AnchorUse) (head : Nat) (f : Journal → Journal) =>
      let d := anchoring u (running head)
      match exec .anchorWriteComplete (stateOf { d with journal := f d.journal }) with
      | .next t => some (t.dev.journal.anchor, t.dev.journal.reclaim)
      | _ => none
    after .unforced 100 (fun j => { j with formatting := true }) = some (some { tail := 0, why := .format }, .idle)
    ∧ after .unforced 100 (fun j => { j with forcedPending := true, reclaim := .awaitingAnchor }) = some (none, .idle)
    ∧ after .unforced 112 (fun j => { j with forcedPending := true, reclaim := .awaitingAnchor })
        = some (some { tail := 112, why := .forced }, .awaitingAnchor)
    ∧ after .forced 100 (fun j => { j with reclaimAgain := true, reclaim := .awaitingAnchor })
        = some (some { tail := 100, why := .forced }, .awaitingAnchor) := by decide +kernel
theorem witness_FormatCompletes :
    let s := stateOf (anchoring .format (running 100))
    s.inFlight (.write (.anchor true) { line := 0x7C00000, words := [] }) 0x7C00000
    ∧ s.dev.journal.anchor = some { tail := 100, why := .format } := by
  unfold State.inFlight; decide

/-! ### Premises met: memory port, starts, holds -/

theorem witness_RefreshesAreOwed : run.dev.port.owed ≤ 5 ∧ run.dev.port.timer.running = true
    ∧ (flying .refresh (running 100)).port.inFlight = some .refresh ∧ State.reset.dev.port.timer.running = false := by
  decide
theorem witness_ArbiterGrantsByRank :
    let d := { running 100 with port := { (running 100).port with owed := 3, waiting := [.read .host 0] } }
    d.port.state = .active ∧ d.port.inFlight = none ∧ rank 3 .refresh < rank 3 (.read .host 0)
    ∧ rank 2 (.read .host 0) < rank 2 .refresh := by decide
/-- HOLDING with all idle and a refresh in flight or nothing, and with an entry queued. -/
theorem witness_SelfRefreshAndBringUp_entry :
    let d := inState .holding (running 100)
    let state := fun (x : Device) => x.settle.port.state
    d.port.state = .active ∧ d.part.state = .holding ∧ d.blocksIdle = true ∧ d.port.waiting = []
    ∧ [d, flying .refresh d, queued 1 d, flying (.read .scan 0x7C00020) d, running 100].map state
      = [.entering, .entering, .active, .active, .active] := by decide
theorem witness_SelfRefreshAndBringUp :
    (let d : Device := { running 100 with port := { (running 100).port with state := .entering } }
     d.port.state = .entering ∧ d.port.inFlight = none ∧ d.part.pfwarn = false ∧ d.part.holdFlag = false)
    ∧ (let d := Device.beginStart { running 100 with port := { (running 100).port with state := .selfRefresh } }
          .restart straps
       d.part.state = .starting ∧ d.part.phase = some .bringUp ∧ d.port.state = .exiting ∧ d.blocksIdle = true
       ∧ d.port.waiting = [] ∧ d.port.inFlight = none)
    ∧ (Device.beginStart State.reset.dev .powerOn straps).port.state = .bringingUp := by decide

/-- ANCHOR with its read in flight over memory that lists the anchor line `ws`. -/
def anchorPhase (ws : List Word) : Device :=
  let w : LineWrite := { line := 0x7C00000
                         words := (List.finRange 8).map fun i => { pos := i, lanes := 15, data := ws.getD i.val 0 } }
  let d := flying (.read .anchor 0x7C00000) (inState .starting (running 100))
  { d with dram := d.dram.writeLine w, part := { d.part with phase := some .anchor } }

theorem witness_AnchorLineRead :
    let s := stateOf (anchorPhase (anchorWords 1048568 1048563 9 4))
    s.inFlight (.read .anchor 0x7C00000) 0x7C00000 ∧ s.dev.part.state = .starting ∧ s.dev.part.phase = some .anchor
    ∧ anchorCondition s.dev.ring (s.dev.dram.readLine 0x7C00000) = .valid
    ∧ anchorCondition s.dev.ring (anchorWords 1048568 1048568 9 4) = .damaged
    ∧ anchorCondition s.dev.ring (List.replicate 8 0) = .blank
    ∧ (stateOf (flying (.read .anchor 0x7C00000) (inState .holding (running 100)))).inFlight (.read .anchor 0x7C00000)
        0x7C00000 := by
  unfold State.inFlight; decide +kernel
theorem witness_ScanLineRead :
    let d := flying (.read .scan 0x7C00020) (inState .starting (running 100))
    let s := stateOf { d with part := { d.part with phase := some .scan, scan := some (Scan.initial 0 9) } }
    s.inFlight (.read .scan 0x7C00020) 0x7C00020 ∧ s.dev.part.state = .starting
    ∧ (stateOf (inState .holding d)).inFlight (.read .scan 0x7C00020) 0x7C00020
    ∧ s.dev.part.phase = some .scan ∧ s.dev.part.scan = some (Scan.initial 0 9)
    ∧ (let ws := recordHeader 1 1 0 6 9 3 0 Config.noLink []
       let sc := { Scan.initial 0 9 with words := ws }
       6 ≤ ringLength straps - sc.pos ∧ 2 ≤ sc.words.length ∧ kindOfCode (recKindByte ws) = some .openRec
       ∧ wordsToScan .openRec ws ≤ ws.length ∧ lengthGood (ringLength straps) 0 .openRec ws = true
       ∧ sc.failure straps .openRec ws = none
       ∧ Scan.failure straps { sc with expected := 10 } .openRec ws = some .sequence) := by
  unfold State.inFlight; decide +kernel

/-- The tests of the scan at their boundaries: the skip and the PAD at the ring end, the kinds next to 1-5, the lengths,
the contexts, the links and the limit (R177). -/
theorem witness_ScanLineRead_tests :
    let sc0 := Scan.initial 0 9
    let sc := { sc0 with openInst := sc0.openInst.set 0 (some { inst := 3, lastSeen := 40 }), order := [0] }
    let why := fun (s : Scan) (ws : List Word) => match Scan.move straps { s with words := ws } with
      | .stop _ r => some r
      | _ => none
    let rec_ := fun (kind ctx byte1 : Byte) (len : Nat) (inst line link : Word) =>
      recordHeader kind ctx byte1 len 9 inst line link []
    why sc ((rec_ 3 1 0 7 3 0 40).take 2) = some .length ∧ why sc [0x03010000, 0xFFFFFFFF] = some .length
    ∧ why { sc with pos := 1048563 } [0] = none ∧ why sc [0] = some .kind ∧ why sc [0x06010000] = some .kind
    ∧ why sc (rec_ 3 1 0 6 3 0 40) = none ∧ why sc (rec_ 3 1 0 7 3 0 40) = some .length
    ∧ why { sc with pos := 1048562 } (rec_ 5 0 0 6 0 0 Config.noLink) = none
    ∧ why { sc with pos := 1048561 } (rec_ 5 0 0 6 0 0 Config.noLink) = some .length
    ∧ why sc (rec_ 3 5 0 6 3 0 40) = some .context ∧ why sc (rec_ 1 1 0 6 4 0 Config.noLink) = some .context
    ∧ why sc (rec_ 4 1 5 6 3 0 40) = some .field ∧ why sc (rec_ 4 1 4 6 3 0 40) = none
    ∧ why sc (rec_ 3 1 0 6 3 0 41) = some .link
    ∧ why { sc with closed := sc.closed.set 0 (some { inst := 3, outcome := .committed }) } (rec_ 3 1 0 6 3 0 40)
        = some .closed
    ∧ why { sc with length := 1048554 - 6 } (rec_ 3 1 0 6 3 0 40) = none
    ∧ why { sc with length := 1048554 - 5 } (rec_ 3 1 0 6 3 0 40) = some .limit := by decide +kernel

/-- The words that the scanner needs next: word 0, word 1, the rest of a COMMIT record; from the line in hand, or from a
line that it reads. -/
theorem witness_ScanLineRead_needs :
    let ws := recordHeader 3 1 0 6 9 3 0 40 []
    let sc := { Scan.initial 4 9 with lineInHand := some (0x7C00020, List.replicate 4 0 ++ ws.take 4) }
    let need := fun (n m : Nat) => scanNeeds straps { sc with words := ws.take n } m
    (need 0 1 ∧ need 1 2 ∧ need 4 6) ∧ ringLine straps 4 = 0x7C00020
    ∧ Scan.move straps sc = .read { sc with words := ws.take 4 } 0x7C00040
    ∧ Scan.move straps { sc with lineInHand := none } = .read { sc with lineInHand := none } 0x7C00020
    ∧ Scan.run straps { sc with words := [0x03010000, 7] } 1 = .stop { sc with words := [0x03010000, 7] } .length := by
  refine ⟨⟨⟨by decide, by decide, Or.inl rfl⟩,
    ⟨by decide, by decide, Or.inr ⟨.commit, (kindOfCode_iff _ _).mp (by decide +kernel), Or.inl ⟨rfl, by decide⟩⟩⟩,
    ⟨by decide, by decide, Or.inr ⟨.commit, (kindOfCode_iff _ _).mp (by decide +kernel),
      Or.inr ⟨by decide, by decide, ?_⟩⟩⟩⟩, by decide, by decide +kernel, by decide +kernel, by decide +kernel⟩
  intro test h
  simp only [scanTests, List.mem_cons, Prod.mk.injEq, reduceCtorEq, false_and, or_false, true_and, List.not_mem_nil] at h
  subst h
  decide

theorem witness_HoldCausesAct :
    run.dev.part.state = .running ∧ run.dev.part.pfwarn = false ∧ run.dev.part.holdFlag = false
    ∧ (writeFrame 0x60 2).row = .hold ∧ frameArrives (writeFrame 0x60 2) 1 ∧ (writeFrame 0x60 3).row = .release
    ∧ frameArrives (writeFrame 0x60 3) 1
    ∧ (let d := { inState .held (running 100) with port := { (running 100).port with state := .selfRefresh } }
       SettledInv (stateOf d) ∧ d.part.state = .held ∧ d.port.state = .selfRefresh ∧ d.part.pfwarn = false)
    ∧ SettledInv (stateOf (inState .starting (running 100))) ∧ SettledInv State.reset
    ∧ SettledInv (stateOf (inState .holding (queued 1 (running 100)))) := by
  unfold frameArrives SettledInv; decide
/-- HOLDING entered from UNDO with a walk that halts and a pass that stops, and with ones that go on. -/
theorem witness_HoldCausesAct_undo :
    let d : Device := { inState .starting (running 100) with
      port := { (running 100).port with waiting := [.read .walk 0x7C00020], inFlight := some .refresh }
      rollback := { list := [{ ctx := 0, inst := 3, outcome := .recovered }], state := .read
                    walk := some { ctx := 0, inst := 3, outcome := .recovered, pos := 0, words := [] } }
      journal := { (running 100).journal with pass := some { start := 94, words := [], expected := none }, debt := 255 } }
    let s := stateOf { d with part := { d.part with phase := some .undo } }
    s.dev.part.phase ≠ some .bringUp ∧ s.dev.part.pfwarn = false ∧ s.dev.walkHalts ∧ s.dev.passStops
    ∧ (match exec .pfwarnAsserted s with
      | .next t => some (t.dev.rollback.state, t.dev.port.waiting, t.dev.journal.pass, t.dev.journal.debt)
      | _ => none) = some (.halted, [], none, 255)
    ∧ (walking 2 (running 100)).rollback.walk.map (·.words) ≠ some []
    ∧ (waiting (.commitCompletion 0) (running 100)).awaitedCommit = some 0 := by
  refine ⟨by decide, by decide, ⟨by decide, by decide, fun l => by simp [stateOf]⟩,
    ⟨by decide, fun l => by simp [stateOf]⟩, by decide, by decide, by decide⟩
theorem witness_HoldCausesAct_bringUp :
    let d := Device.beginStart State.reset.dev .powerOn straps
    SettledInv (stateOf d) ∧ d.part.state = .starting ∧ d.part.phase = some .bringUp := by
  unfold SettledInv; decide

theorem witness_ResetLine : run.dev.part.rst = false
    ∧ (flying (.write .data { line := 64, words := [] }) (running 100)).port.inFlight
        = some (.write .data { line := 64, words := [] })
    ∧ MemoryInv (stateOf (flying (.write .data { line := 64, words := [] }) (running 100)))
    ∧ (let s := (Device.unstarted { cells := [], lost := none } true false 0).part
       s.rst = true ∧ s.powered = false) := by unfold MemoryInv; decide
/-- A COMMIT record's header write in flight: it stands when all bytes are written, and does not when none is. -/
theorem witness_ResetLine_cut :
    let d := appending .commit 1 none (running 100)
    let ws := recordWrites straps 104 (recordHeader 3 1 0 6 5 3 0 50 []) []
    d.port.inFlight = some (.write (.append .writeEngine) { line := 0x7C001A0, words := [] })
    ∧ (d.journal.append.map fun a => (a.pos, a.seq)) = some (100, 5) ∧ MemoryInv (stateOf d)
    ∧ (ws.map (·.line)) = [0x7C001C0] ∧ (∀ w ∈ ws, (w.bytes.map (·.1)).Nodup
        ∧ (d.dram.writeBytes w.line (fun _ => false) w.bytes).recordStands straps 104 5 = false)
    ∧ (ws.foldl Memory.writeLine d.dram).recordStands straps 104 5 = true
    ∧ (ws.foldl Memory.writeLine d.dram).recordStands straps 104 6 = false := by
  unfold MemoryInv
  decide +kernel
/-- An anchor line's write: a mix of the old line and the new one that checks good is excluded, as a record that stands is. -/
theorem witness_ResetLine_anchor :
    let d := running 100
    let line := fun (tail : Nat) => d.anchorLine tail 5 7
    let m := d.dram.writeLine (line 8)
    let cut := { d with dram := m }
    (anchoring .forced d).port.inFlight = some (.write (.anchor true) { line := 0x7C00000, words := [] })
    ∧ ((line 12).bytes.map (·.1)).Nodup
    ∧ [m, m.writeLine (line 12), m.writeLine (line 16)].map (cut.cutExcludes (.anchor true) (line 12))
        = [false, false, true] := by decide +kernel
theorem witness_PowerComesAndGoes : State.reset.dev.part.powered = false ∧ State.reset.dev.part.rst = false
    ∧ run.dev.part.powered = true ∧ run.dev.port.state ≠ .selfRefresh := by decide

/-! ### Premises met: management port -/

theorem witness_FramesRead : (readFrame 0x70).row = .read ∧ (readFrame 0x70).words = some 1
    ∧ (readFrame 0x70).tooShort 1 = false ∧ (readFrame 0x70).tooLong 1 = false
    ∧ run.dev.readItem 0x70 ≠ none ∧ run.dev.readItem 0x73 = none
    ∧ ({ bytes := [0x30], extraBits := 0, ended := true } : Frame).row = .read ∧ ({ bytes := [0x30], extraBits := 0, ended := true } : Frame).words = none
    ∧ ({ bytes := [0, 0, 0x70, 0, 0, 0], extraBits := 7, ended := true } : Frame).tooShort 1 = true
    ∧ ({ bytes := [0, 0, 0x70, 0, 0, 0, 0], extraBits := 1, ended := true } : Frame).tooLong 1 = true
    ∧ State.reset.dev.part.state = .stopped := by decide
/-- A READ frame of item 070h with its item bytes taken. -/
def halfRead (d : Device) : Device :=
  { d with mgmt := { d.mgmt with frame := .data, current := some { bytes := [0, 0, 0x70], snapshot := some [some 5] } } }
/-- The frame phases at their boundaries, and a READ that goes on and ends with the values of its snapshot. -/
theorem witness_FramesRead_in_progress :
    let f := fun (n : Nat) => ({ bytes := (0x40 : Byte) :: List.replicate n 0, extraBits := 0, ended := false } : Frame)
    [0, 1, 2, 6, 7, 8].map (fun n => framePhase (f n))
      = [.item, .item, .data, .check, .excess, .excess] ∧ framePhase { f 0 with bytes := [] } = .command
    ∧ framePhase { f 0 with bytes := [0x30, 0, 0] } = .data
    ∧ (stateOf (halfRead (running 100))).takes (readFrame 0x70)
    ∧ (match exec (.managementReadFrame (readFrame 0x70)) (stateOf (halfRead (running 100))) with
      | .next t => some (t.dev.mgmt.mdo, t.dev.mgmt.lastResult)
      | _ => none) = some ([0, 0, 0, 0, 0, 0, 5], .ok)
    ∧ (halfRead (running 100)).continues (readFrame 0x71) = false ∧ run.takes { f 0 with bytes := [], ended := true }
    ∧ frameCarried (.applyRequest { writeFrame 0x40 1 with ended := false }) ≠ none := by
  unfold State.takes; decide
theorem witness_FrameInv : FrameInv run ∧ FrameInv State.reset ∧ FrameInv (stateOf (halfRead (running 100))) :=
  ⟨Or.inl rfl, Or.inr rfl, by decide, by decide⟩
theorem witness_WriteFramesDiscarded :
    frameWritten (.settingWrite (writeFrame 0x51 1024)) = some (writeFrame 0x51 1024)
    ∧ frameArrives (writeFrame 0x51 1024) 1
    ∧ frameWritten (.settingWrite { bytes := [0xB0], extraBits := 0, ended := true }) = some { bytes := [0xB0], extraBits := 0, ended := true }
    ∧ ({ bytes := [0xC0, 0, 0x50, 0, 0, 0, 1, 0], extraBits := 0, ended := true } : Frame).crcGood 1 = false := by
  unfold frameArrives; decide +kernel
/-- Items and values at the boundaries of what is written. -/
theorem witness_WriteFramesDiscarded_items :
    ¬ itemTakes 0x51 1024 ∧ itemTakes 0x51 1023 ∧ ¬ itemTakes 0x1F 0 ∧ itemTakes 0x2F 0 ∧ ¬ itemTakes 0x30 0
    ∧ ¬ itemTakes 0x40 2 ∧ ¬ itemTakes 0x57 1 ∧ ¬ itemTakes 0x60 0 ∧ itemTakes 0x60 3 ∧ ¬ itemTakes 0x60 4
    ∧ ¬ itemTakes 0x72 0 := by simp [itemTakes]
/-- The lengths that frames of one, two and four words declare, and a length code that names none (R186). -/
theorem test_declared_lengths :
    let f := fun (c : Byte) => ({ bytes := [c, 0, 0x50, 0, 0, 1, 2], extraBits := 0, ended := true } : Frame)
    [0x80, 0xC0, 0x90, 0xD0, 0xA0, 0xE0, 0xB0].map (fun c => (f c).words.map (f c).declared)
      = [some 7, some 8, some 11, some 12, some 19, some 20, none]
    ∧ (f 0x80).word 0 = 0x102 ∧ (f 0x80).item = 0x50 ∧ (f 0x80).row = .setting := by decide
theorem witness_FormatTaken : (writeFrame 0x60 1).row = .format ∧ frameArrives (writeFrame 0x60 1) 1
    ∧ run.dev.part.state = .running ∧ run.dev.journal.formatting = false ∧ run.dev.journal.anchor = none
    ∧ (∀ c, (run.dev.ctx c).state = .free) ∧ run.dev.queue = []
    ∧ ((holding .opened (running 100)).ctx 0).state ≠ .free := by unfold frameArrives; decide
theorem witness_AlertsAndSettingsWritten : (writeFrame 0x70 0x7F).row = .causesClear
    ∧ frameArrives (writeFrame 0x70 0x7F) 1 ∧ (writeFrame2 0x70 1 2).row = .causesClear
    ∧ frameArrives (writeFrame2 0x70 1 2) 2 ∧ (writeFrame 0x71 0).row = .maskWrite ∧ frameArrives (writeFrame 0x71 0) 1
    ∧ (writeFrame2 0x55 15 31).row = .setting ∧ frameArrives (writeFrame2 0x55 15 31) 2
    ∧ (writeFrame2 0x55 15 31).item + 2 ≤ 0x57 ∧ (settingRange 5).2 = 15 ∧ (settingRange 6).2 = 31 := by
  unfold frameArrives; decide
/-- Items of each block in the running machine, and the numbers beside the items. -/
theorem test_items :
    [0x000, 0x001, 0x004, 0x006, 0x007, 0x011, 0x020, 0x031, 0x040, 0x051, 0x071, 0x0A1].map run.dev.readItem
      = [0x20100000, 100, 0, 1048554, 5, 0, 0, 0x101, 0, 100, 0x7F, 1048568].map some
    ∧ [0x00A, 0x00F, 0x01C, 0x041, 0x057, 0x061, 0x073, 0x082, 0x093, 0x0A2].map run.dev.readItem
      = List.replicate 10 none := by decide +kernel

end Sys2Proof.Tests
end

section
/-! RENEW and QUERY (R47, R48): what a mark is answered in each part state, the reply word's fields (R35), and the same
fields read over the management port (R187-R193). -/

namespace Sys2Proof.Machine

/-! ### Marks -/

/-- A mark whose address names its row's request arrives at the port for the context it names (R33). -/
theorem takeMark_of_markRequest {s : State} {k : MarkKind} {m : MarkCycle} {c : Ctx} (eval : Ctx → Device → Device)
    (hm : markRequest m.addr = some (k, c)) :
    s.takeMark k m eval = .next (s.withDev (s.dev.takeCycle [0] (eval c))) := by
  unfold State.takeMark
  rw [hm]
  exact if_pos rfl

theorem takeCycle_running {d : Device} (zeros : List Word) (eval : Device → Device)
    (hi : d.host.mode = .idle) (hr : d.part.state = .running) :
    d.takeCycle zeros eval = (eval { d with host := { d.host with answer := none } }).settle := by
  simp only [Device.takeCycle, hi, hr, if_true]

/-- In STARTING an arriving cycle is answered NOT_READY and not evaluated (R20). -/
theorem takeCycle_starting {d : Device} (zeros : List Word) (eval : Device → Device)
    (hi : d.host.mode = .idle) (hp : d.part.state = .starting) :
    d.takeCycle zeros eval = d.answer .notReady zeros := by
  simp only [Device.takeCycle, hi, hp, if_true]
  rfl

/-- In HOLDING and HELD an arriving cycle is answered HELD and not evaluated (R20). -/
theorem takeCycle_holding {d : Device} (zeros : List Word) (eval : Device → Device)
    (hi : d.host.mode = .idle) (hp : d.part.state = .holding ∨ d.part.state = .held) :
    d.takeCycle zeros eval = d.answer .held zeros := by
  rcases hp with hp | hp <;> simp only [Device.takeCycle, hi, hp, if_true] <;> rfl

/-- A mark whose evaluation answers over a device `d` with the part and the memory port as they stand: nothing is left
to settle behind the answer, so the next state is `d` with it. -/
theorem takeMark_answered {s : State} {k : MarkKind} {m : MarkCycle} {c : Ctx} {eval : Ctx → Device → Device}
    {d : Device} {code : Rsp} {ws : List Word} (hm : markRequest m.addr = some (k, c)) (he : s.evaluates)
    (hs : SettledInv s) (hpart : d.part = s.dev.part) (hport : d.port = s.dev.port)
    (heval : eval c { s.dev with host := { s.dev.host with answer := none } } = d.answer code ws) :
    s.takeMark k m eval = .next ((s.withDev d).answered code ws) := by
  obtain ⟨hrun, hidle⟩ := he
  have hsettle : (d.answer code ws).settle = d.answer code ws :=
    hs.settle_running (by rw [Device.answer_part, hpart, hrun]) hport
  rw [takeMark_of_markRequest eval hm, takeCycle_running _ _ hidle hrun, heval, hsettle]
  rfl

/-! ### RENEW -/

/-- The device with the lease of a context restarted and its lease-expired flag cleared (R47). -/
def Device.renewed (d : Device) (c : Ctx) : Device :=
  d.modifyCtx c fun x => { x with lease := d.freshLease, leaseExpired := false }

theorem renewed_frame (d : Device) (c : Ctx) : unchangedBut [.contexts] d (d.renewed c) := modifyCtx_frame _ _ _

theorem renewed_otherContexts (d : Device) (c : Ctx) : otherContexts c d (d.renewed c) :=
  fun x hx => Device.ctx_modifyCtx_ne d c x _ hx

@[simp] theorem renewed_ctx (d : Device) (c : Ctx) :
    (d.renewed c).ctx c = { d.ctx c with lease := d.freshLease, leaseExpired := false } :=
  Device.ctx_modifyCtx d c _

theorem live_iff (x : CtxState) : x.live = true ↔ x = .opened ∨ x = .spoiled := by
  cases x <;> decide

theorem live_eq_false_iff (x : CtxState) : x.live = false ↔ x = .free ∨ x = .closing ∨ x = .undoing := by
  cases x <;> decide

theorem evalRenew_live {d : Device} {c : Ctx} (h : (d.ctx c).state.live = true) :
    d.evalRenew c = (d.renewed c).reply c .accepted := if_pos h

theorem evalRenew_not_live {d : Device} {c : Ctx} (h : (d.ctx c).state.live = false) :
    d.evalRenew c = d.reply c .busy := if_neg (by simp [h])

/-- RENEW in OPEN and SPOILED: ACCEPTED, over the renewed context (R47). -/
theorem exec_renewMark_live {m : MarkCycle} {c : Ctx} {s : State} (hm : markRequest m.addr = some (.renewKind, c))
    (he : s.evaluates) (hs : SettledInv s) (h : (s.dev.ctx c).state.live = true) :
    exec (.renewMark m) s
      = .next ((s.withDev (s.dev.renewed c)).answered .okay [replyWord .accepted ((s.dev.renewed c).ctx c)]) :=
  takeMark_answered hm he hs rfl rfl (evalRenew_live h)

/-- RENEW in every other context state: BUSY (R47). -/
theorem exec_renewMark_not_live {m : MarkCycle} {c : Ctx} {s : State}
    (hm : markRequest m.addr = some (.renewKind, c)) (he : s.evaluates) (hs : SettledInv s)
    (h : (s.dev.ctx c).state.live = false) :
    exec (.renewMark m) s = .next (s.answered .okay [replyWord .busy (s.dev.ctx c)]) :=
  takeMark_answered (d := s.dev) hm he hs rfl rfl (evalRenew_not_live h)

/-- Settles O35: RENEW by whether the context is live. -/
theorem renewByState : Obligations.RenewByState := by
  intro m c s hm he hs
  constructor
  · intro hopen
    have hlive := (live_iff _).mpr hopen
    exact ⟨s.dev.renewed c, exec_renewMark_live hm he hs hlive, renewed_frame _ _, renewed_otherContexts _ _,
      renewed_ctx _ _⟩
  · intro hother
    exact exec_renewMark_not_live hm he hs ((live_eq_false_iff _).mpr hother)

/-! ### QUERY over the host bus -/

/-- QUERY in RUNNING: STATUS in every context state, with the device as it stands (R48). -/
theorem exec_queryMark_running {m : MarkCycle} {c : Ctx} {s : State} (hm : markRequest m.addr = some (.queryKind, c))
    (he : s.evaluates) (hs : SettledInv s) :
    exec (.queryMark m) s = .next (s.answered .okay [replyWord .status (s.dev.ctx c)]) :=
  takeMark_answered (d := s.dev) hm he hs rfl rfl rfl

theorem exec_queryMark_starting {m : MarkCycle} {c : Ctx} {s : State}
    (hm : markRequest m.addr = some (.queryKind, c)) (hi : s.dev.host.mode = .idle)
    (hp : s.dev.part.state = .starting) : exec (.queryMark m) s = .next (s.answered .notReady [0]) :=
  (takeMark_of_markRequest _ hm).trans (by rw [takeCycle_starting _ _ hi hp]; rfl)

theorem exec_queryMark_holding {m : MarkCycle} {c : Ctx} {s : State}
    (hm : markRequest m.addr = some (.queryKind, c)) (hi : s.dev.host.mode = .idle)
    (hp : s.dev.part.state = .holding ∨ s.dev.part.state = .held) :
    exec (.queryMark m) s = .next (s.answered .held [0]) :=
  (takeMark_of_markRequest _ hm).trans (by rw [takeCycle_holding _ _ hi hp]; rfl)

/-! ### The fields of the reply word (R35) -/

section
variable (r : ReplyResult) (x : ContextEntry)

theorem replyWord_result : (replyWord r x).extractLsb' 28 4 = BitVec.ofNat 4 r.code := by
  unfold replyWord
  change BitVec.extractLsb' (n := 4 + 3 + 1 + 8 + 16) 28 4 _ = _
  rw [BitVec.extractLsb'_append_eq_of_le (by decide), BitVec.extractLsb'_append_eq_of_le (by decide),
    BitVec.extractLsb'_append_eq_of_le (by decide), BitVec.extractLsb'_append_eq_left]

theorem replyWord_state : (replyWord r x).extractLsb' 25 3 = BitVec.ofNat 3 x.state.code := by
  unfold replyWord
  change BitVec.extractLsb' (n := 4 + 3 + 1 + 8 + 16) 25 3 _ = _
  rw [BitVec.extractLsb'_append_eq_of_le (by decide), BitVec.extractLsb'_append_eq_of_le (by decide),
    BitVec.extractLsb'_append_eq_of_le (by decide), BitVec.extractLsb'_append_eq_right]

theorem replyWord_leaseExpired : (replyWord r x).getLsbD 24 = x.leaseExpired := by
  unfold replyWord
  change BitVec.getLsbD (w := 4 + 3 + 1 + 8 + 16) _ 24 = _
  rw [BitVec.getLsbD_append, if_neg (by decide), BitVec.getLsbD_append, if_neg (by decide), BitVec.getLsbD_append,
    if_pos (by decide), BitVec.getLsbD_ofBool]
  simp

/-- The field that holds the last outcome in FREE and the owned lines else. -/
theorem replyWord_field :
    (replyWord r x).extractLsb' 16 8 = BitVec.ofNat 8 (if x.state = .free then x.outcome.code else x.owned) := by
  unfold replyWord
  change BitVec.extractLsb' (n := 4 + 3 + 1 + 8 + 16) 16 8 _ = _
  rw [BitVec.extractLsb'_append_eq_of_le (by decide), BitVec.extractLsb'_append_eq_right]

theorem replyWord_inst : (replyWord r x).extractLsb' 0 16 = x.inst.extractLsb' 0 16 := by
  unfold replyWord
  change BitVec.extractLsb' (n := 4 + 3 + 1 + 8 + 16) 0 16 _ = _
  rw [BitVec.extractLsb'_append_eq_right]

end

theorem replyLayout_holds : replyLayout :=
  ⟨rfl, rfl, rfl, fun r x => ⟨replyWord_result r x, replyWord_state r x, replyWord_leaseExpired r x,
    fun h => (replyWord_field r x).trans (by rw [if_neg h]),
    fun h => (replyWord_field r x).trans (by rw [if_pos h]), replyWord_inst r x⟩⟩

/-! ### The context's fields over the management port -/

/-- Items 010h, 012h, 014h and 016h are the STATUS reply words of the contexts (R193). -/
theorem readItem_contextStatus (d : Device) (c : Ctx) :
    d.readItem (0x10 + 2 * c.val) = some (replyWord .status (d.ctx c)) := by
  match c with
  | 0 => rfl
  | 1 => rfl
  | 2 => rfl
  | 3 => rfl

/-- Items 018h to 01Bh read the contexts' `inst` (R193). -/
theorem readItem_contextInst (d : Device) (c : Ctx) : d.readItem (0x18 + c.val) = some (d.ctx c).inst := by
  match c with
  | 0 => rfl
  | 1 => rfl
  | 2 => rfl
  | 3 => rfl

theorem isWrite_of_row_read {f : Frame} (h : f.row = .read) : f.isWrite = false := by
  cases hw : f.isWrite with
  | false => rfl
  | true =>
    unfold Frame.row at h
    simp only [hw, Bool.not_true, Bool.false_eq_true, if_false] at h
    split_ifs at h

/-- A whole READ frame is taken: the port ends it over the device as it stands (R187, R189). -/
theorem exec_managementReadFrame_ended {f : Frame} {s : State} (hrow : f.row = .read) (hend : f.ended = true)
    (ht : s.takes f) : exec (.managementReadFrame f) s = .next (s.withDev (s.dev.readFrame f)) := by
  obtain ⟨hrun, hcont⟩ := ht
  have hfits : f.fits .read = true := by simp [Frame.fits, hend, hrow]
  change execManagementReadFrame f s = _
  simp only [execManagementReadFrame, Device.clockFrame, hfits, hrun, hcont, hend, if_true, if_false,
    State.onDevice_next]

/-- A READ frame that begins and ends in one command shifts out the last frame result and its items as they stand. -/
theorem shiftedOut_whole_read {d : Device} {f : Frame} {w : Nat} (hread : f.isWrite = false)
    (hitem : 3 ≤ f.bytes.length) (hcur : d.mgmt.current = none) (hw : f.words = some w) :
    d.shiftedOut f
      = d.mgmt.lastResult.code :: readStream f ((List.range w).map fun k => d.readItem (f.item + k)) := by
  have hsnap : d.snapshotFor f = some ((List.range w).map fun k => d.readItem (f.item + k)) := by
    simp [Device.snapshotFor, hread, hcur, hw, Nat.not_lt.mpr hitem]
  simp only [Device.shiftedOut, hsnap]

/-- A window of the bytes shifted out that lies within those clocked and those there are. -/
theorem mdo_window (l : List Byte) {n i k : Nat} (hn : i + k ≤ n) (hl : i + k ≤ l.length) :
    (((List.range n).map fun j => l.getD j 0).drop i).take k = (l.drop i).take k := by
  refine List.ext_getElem (by simp; omega) fun j hj _ => ?_
  have hjk : j < k := by simp at hj; omega
  have hin : i + j < l.length := by omega
  simp [hin]

/-- The data bytes of a whole READ frame of one word carry the word of its item (R186, R189). -/
theorem readFrame_mdo_word {d : Device} {f : Frame} {v : Word} (hread : f.isWrite = false)
    (hlen : 7 ≤ f.bytes.length) (hcur : d.mgmt.current = none) (hw : f.words = some 1)
    (hv : d.readItem f.item = some v) : ((d.readFrame f).mgmt.mdo.drop 3).take 4 = wordBytes v := by
  have hout := shiftedOut_whole_read hread (by omega) hcur hw
  have hbytes : ((d.shiftedOut f).drop 3).take 4 = wordBytes v := by
    rw [hout]
    simp [readStream, hv, wordBytes]
  have hlong : 3 + 4 ≤ (d.shiftedOut f).length := by
    have hcount := congrArg List.length hbytes
    simp only [List.length_take, List.length_drop, wordBytes, List.length_cons, List.length_nil] at hcount
    omega
  exact (mdo_window _ hlen hlong).trans hbytes

/-- Settles O36: QUERY by the part state, and the same reply word as an item and on MDO. -/
theorem queryByState : Obligations.QueryByState := by
  intro m c s hm hs
  refine ⟨fun he => exec_queryMark_running hm he hs, exec_queryMark_starting hm, exec_queryMark_holding hm,
    readItem_contextStatus _ _, readItem_contextInst _ _, ?_, replyLayout_holds⟩
  intro f hrow hend ht hcur hw hitem hlen
  have hv : s.dev.readItem f.item = some (replyWord .status (s.dev.ctx c)) := by
    rw [hitem, readItem_contextStatus]
  exact ⟨s.dev.readFrame f, exec_managementReadFrame_ended hrow hend ht,
    readFrame_mdo_word (isWrite_of_row_read hrow) hlen hcur hw hv⟩

end Sys2Proof.Machine
end

section
/-! Work behind the host port: the operations that touch only the write engine, the journal controller, the rollback
engine, the memory port and the alert causes, and what all of them keep. -/

namespace Sys2Proof.Machine

/-- `e` is `d` after work of the engines and the memory port: no other block changes, the counters stay within their caps
(R102, R157), no refresh joins the requests waiting (R157), settings and frame stand, and the write engine becomes IDLE
with an empty queue only (R86). -/
structure Worked (d e : Device) : Prop where
  frame : unchangedBut [.engine, .journal, .rollback, .port, .mgmt] d e
  debt : e.journal.debt ≤ max d.journal.debt 255
  owed : e.port.owed ≤ max d.port.owed 5
  waiting : Access.refresh ∈ e.port.waiting → Access.refresh ∈ d.port.waiting
  settings : e.mgmt.settings = d.mgmt.settings
  frameState : e.mgmt.frame = d.mgmt.frame ∧ e.mgmt.current = d.mgmt.current
  engine : e.engine = .idle → d.engine = .idle ∨ d.queue = []

namespace Worked

variable {d e f : Device}

theorem refl (d : Device) : Worked d d :=
  ⟨.refl _ _, le_max_left _ _, le_max_left _ _, id, rfl, ⟨rfl, rfl⟩, Or.inl⟩

theorem host (h : Worked d e) : e.host = d.host := h.frame .host (by decide)
theorem regions (h : Worked d e) : e.regions = d.regions := h.frame .regions (by decide)
theorem contexts (h : Worked d e) : e.contexts = d.contexts := h.frame .contexts (by decide)
theorem own (h : Worked d e) : e.own = d.own := h.frame .own (by decide)
theorem queue (h : Worked d e) : e.queue = d.queue := h.frame .queue (by decide)
theorem part (h : Worked d e) : e.part = d.part := h.frame .part (by decide)
theorem dram (h : Worked d e) : e.dram = d.dram := h.frame .dram (by decide)
theorem drawn (h : Worked d e) : e.drawn = d.drawn := h.frame .drawn (by decide)

theorem trans (h : Worked d e) (k : Worked e f) : Worked d f where
  frame := h.frame.trans k.frame
  debt := by have := h.debt; have := k.debt; omega
  owed := by have := h.owed; have := k.owed; omega
  waiting := h.waiting ∘ k.waiting
  settings := k.settings.trans h.settings
  frameState := ⟨k.frameState.1.trans h.frameState.1, k.frameState.2.trans h.frameState.2⟩
  engine := fun hf => (k.engine hf).elim h.engine fun hq => Or.inr (h.queue ▸ hq)

theorem setJournal (d : Device) {j : Journal} (h : j.debt ≤ max d.journal.debt 255 := by exact le_max_left _ _) :
    Worked d { d with journal := j } :=
  ⟨(journal_frame d j).mono (by decide), h, le_max_left _ _, id, rfl, ⟨rfl, rfl⟩, Or.inl⟩

theorem setEngine (d : Device) {x : Engine} (h : x = .idle → d.queue = [] := by simp) : Worked d { d with engine := x } :=
  ⟨(engine_frame d x).mono (by decide), le_max_left _ _, le_max_left _ _, id, rfl, ⟨rfl, rfl⟩, fun hx => Or.inr (h hx)⟩

theorem setRollback (d : Device) (r : Rollback) : Worked d { d with rollback := r } :=
  ⟨(rollback_frame d r).mono (by decide), le_max_left _ _, le_max_left _ _, id, rfl, ⟨rfl, rfl⟩, Or.inl⟩

theorem setPort (d : Device) {p : MemPort} (ho : p.owed ≤ max d.port.owed 5 := by exact le_max_left _ _)
    (hw : Access.refresh ∈ p.waiting → Access.refresh ∈ d.port.waiting := by exact id) : Worked d { d with port := p } :=
  ⟨(port_frame d p).mono (by decide), le_max_left _ _, ho, hw, rfl, ⟨rfl, rfl⟩, Or.inl⟩

theorem setMgmt (d : Device) {m : Management} (hs : m.settings = d.mgmt.settings := by rfl)
    (hf : m.frame = d.mgmt.frame ∧ m.current = d.mgmt.current := by exact ⟨rfl, rfl⟩) : Worked d { d with mgmt := m } :=
  ⟨(mgmt_frame d m).mono (by decide), le_max_left _ _, le_max_left _ _, id, hs, hf, Or.inl⟩

end Worked

/-! ### Requests and grants -/

theorem request_worked (d : Device) {a : Access} (h : a ≠ .refresh := by simp) : Worked d (d.request a) :=
  .setPort d (le_max_left _ _) fun k => by
    rcases List.mem_append.mp k with k | k
    · exact k
    · exact absurd (List.mem_singleton.mp k).symm h

theorem withdraw_worked (d : Device) (p : Access → Bool) : Worked d (d.withdraw p) :=
  .setPort d (le_max_left _ _) fun k => List.mem_of_mem_filter k

theorem landed_worked (d : Device) : Worked d d.landed := .setPort d

/-- A grant fixes a gathered group and leaves the engine IDLE only where it was (R91). -/
theorem onGrant_idle {x : Engine} {a : Access} (h : x.onGrant a = .idle) : x = .idle := by
  unfold Engine.onGrant at h
  split at h
  · exact absurd h (by simp)
  · exact h

theorem granted_worked (d : Device) (a : Access) : Worked d (d.granted a) :=
  ⟨(granted_frame d a).mono (by decide), le_max_left _ _, le_max_left _ _, fun k => List.mem_of_mem_erase k, rfl,
    ⟨rfl, rfl⟩, fun h => Or.inl (onGrant_idle h)⟩

theorem grant_worked (d : Device) : Worked d d.grant := by
  unfold Device.grant
  split
  · split
    · exact .refl _
    · exact granted_worked _ _
  · exact .refl _

theorem raise_worked (d : Device) (c : Cause) : Worked d (d.raise c) := .setMgmt d

theorem noteFree_worked (d : Device) (n : Int) : Worked d (d.noteFree n) := by
  unfold Device.noteFree
  split
  · exact raise_worked _ _
  · exact .refl _

theorem reserve_worked (d : Device) (n : Nat) : Worked d (d.reserve n) :=
  (Worked.setJournal d).trans (noteFree_worked _ _)

/-! ### Appends -/

theorem requestAppendWrite_worked (d : Device) (a : Append) : Worked d (d.requestAppendWrite a) := by
  unfold Device.requestAppendWrite
  split
  · exact .refl _
  · exact request_worked _

theorem placeRecord_worked (d : Device) (w : Appender) (r : RecordReq) (p : Nat) : Worked d (d.placeRecord w r p) :=
  (Worked.setJournal d).trans (requestAppendWrite_worked _ _)

theorem placePad_worked (d : Device) (w : Appender) (r : RecordReq) (p : Nat) : Worked d (d.placePad w r p) :=
  (Worked.setJournal d).trans (requestAppendWrite_worked _ _)

theorem skipRingEnd_worked (d : Device) (r : Nat) : Worked d (d.skipRingEnd r) :=
  (Worked.setJournal d).trans (noteFree_worked _ _)

theorem beginAppend_worked (d : Device) (w : Appender) (r : RecordReq) : Worked d (d.beginAppend w r) := by
  unfold Device.beginAppend
  simp only
  split
  · exact placeRecord_worked _ _ _ _
  · split
    · exact placePad_worked _ _ _ _
    · exact (skipRingEnd_worked d _).trans (placeRecord_worked _ _ _ _)

theorem requestAppend_worked (d : Device) (w : Appender) (r : RecordReq) : Worked d (d.requestAppend w r) := by
  unfold Device.requestAppend
  split
  · exact beginAppend_worked _ _ _
  · exact .setJournal d

theorem beginWaitingAppend_worked (d : Device) : Worked d d.beginWaitingAppend := by
  unfold Device.beginWaitingAppend
  split
  · exact .refl _
  · exact (Worked.setJournal d).trans (beginAppend_worked _ _ _)

theorem padComplete_worked (d : Device) (a : Append) (r : Nat) : Worked d (d.padComplete a r) :=
  ((Worked.setJournal d).trans (noteFree_worked _ _)).trans (placeRecord_worked _ _ _ _)

theorem recordLanded_worked (d : Device) (a : Append) : Worked d (d.recordLanded a) :=
  (Worked.setJournal d).trans (noteFree_worked _ _)

/-! ### Anchor writes, passes and reclaims -/

theorem issueAnchor_worked (d : Device) (w : AnchorUse) : Worked d (d.issueAnchor w) :=
  (Worked.setJournal d).trans (request_worked _)

theorem requestForcedAnchor_worked (d : Device) : Worked d d.requestForcedAnchor := by
  unfold Device.requestForcedAnchor
  split
  · exact issueAnchor_worked _ _
  · exact .setJournal d

/-- The debt rises by at most 1, and not beyond its cap (R117). -/
theorem passStop_debt_le (d : Device) (p : Pass) :
    (if (decide (p.start ≠ d.journal.liveTail) && decide (d.journal.debt < Config.debtCap)) = true
      then d.journal.debt + 1 else d.journal.debt) ≤ max d.journal.debt 255 := by
  split
  · next h =>
    have hlt : d.journal.debt < 255 := of_decide_eq_true (Bool.and_eq_true_iff.mp h).2
    omega
  · exact le_max_left _ _

theorem passStop_worked (d : Device) (p : Pass) : Worked d (d.passStop p) := by
  have hdebt := passStop_debt_le d p
  unfold Device.passStop
  dsimp only
  revert hdebt
  generalize (if (decide (p.start ≠ d.journal.liveTail) && decide (d.journal.debt < Config.debtCap)) = true
    then d.journal.debt + 1 else d.journal.debt) = debt
  intro hdebt
  by_cases h : d.journal.reclaim = .inPass
  · rw [if_pos h]
    exact (Worked.setJournal d hdebt).trans (requestForcedAnchor_worked _)
  · rw [if_neg h]
    split
    · exact (Worked.setJournal d hdebt).trans (issueAnchor_worked _ _)
    · exact .setJournal d hdebt

theorem requestHeader_worked (d : Device) (p : Nat) : Worked d (d.requestHeader p) := request_worked _

theorem passRun_worked (d : Device) (p : Pass) : Worked d (d.passRun p) := by
  unfold Device.passRun
  simp only
  split
  · exact (Worked.setJournal d).trans (passStop_worked _ _)
  · split
    · split
      · exact (Worked.setJournal d).trans (passStop_worked _ _)
      · exact (Worked.setJournal d).trans (requestHeader_worked _ _)
    · exact (Worked.setJournal d).trans (requestHeader_worked _ _)

theorem beginPass_worked (d : Device) : Worked d d.beginPass := passRun_worked _ _

theorem passNext_worked (d : Device) : Worked d d.passNext := by
  unfold Device.passNext
  split
  · exact (Worked.setJournal d).trans (beginPass_worked _)
  · exact .refl _

theorem requestPass_worked (d : Device) : Worked d d.requestPass := by
  unfold Device.requestPass
  split
  · split
    · exact beginPass_worked _
    · exact .setJournal d
  · exact .refl _

theorem requestReclaim_worked (d : Device) : Worked d d.requestReclaim := by
  unfold Device.requestReclaim
  split
  · exact .refl _
  · exact .setJournal d
  · simp only
    split
    · exact (Worked.setJournal d).trans (beginPass_worked _)
    · exact .setJournal d

theorem endReclaim_worked (d : Device) : Worked d d.endReclaim := by
  unfold Device.endReclaim
  simp only
  split
  · exact (Worked.setJournal d).trans (requestReclaim_worked _)
  · exact .setJournal d

theorem anchorLanded_worked (d : Device) (w : AnchorWrite) : Worked d (d.anchorLanded w) :=
  .setJournal d (Nat.zero_le _)

theorem formatLanded_worked (d : Device) : Worked d d.formatLanded := .setJournal d (Nat.zero_le _)

theorem anchorNext_worked (d : Device) (w : AnchorWrite) : Worked d (d.anchorNext w) := by
  unfold Device.anchorNext
  split
  · exact issueAnchor_worked _ _
  · split
    · simp only
      split
      · exact (Worked.setJournal d).trans (endReclaim_worked _)
      · exact (Worked.setJournal d).trans (issueAnchor_worked _ _)
    · split
      · exact endReclaim_worked _
      · exact .refl _

theorem retire_worked (d : Device) (t : TailId) (n : Nat) : Worked d (d.retire t n) := .setJournal d

theorem passHalt_worked (d : Device) (p : Pass) : Worked d (d.passHalt p) := by
  unfold Device.passHalt
  split
  · exact (Worked.setJournal d).trans (passStop_worked _ _)
  · exact passStop_worked _ _

theorem headerRead_worked (d : Device) (p : Pass) (t : TailId) : Worked d (d.headerRead p t) := by
  unfold Device.headerRead
  split
  · simp only
    split
    · exact (retire_worked d _ _).trans (passHalt_worked _ _)
    · exact ((retire_worked d _ _).trans (passRun_worked _ _)).trans (passNext_worked _)
  · exact ((Worked.setJournal d).trans (passStop_worked _ _)).trans (passNext_worked _)

theorem takeFormat_worked (d : Device) : Worked d d.takeFormat := by
  unfold Device.takeFormat
  dsimp only
  split
  · exact ((withdraw_worked d _).trans (Worked.setJournal _)).trans (issueAnchor_worked _ _)
  · exact (withdraw_worked d _).trans (Worked.setJournal _)

theorem setCondition_worked (d : Device) (line : List Word) : Worked d (d.setCondition line) := by
  unfold Device.setCondition
  dsimp only
  split
  · exact .setJournal d
  · exact .setJournal d
  · exact (Worked.setJournal d).trans (raise_worked _ _)

/-! ### The write engine and the rollback engine -/

theorem requestData_worked (d : Device) : Worked d d.requestData := by
  unfold Device.requestData
  split
  · exact request_worked _
  · exact .refl _

/-- The engine goes IDLE on an empty queue only (R86). -/
theorem engineNext_worked (d : Device) : Worked d d.engineNext := by
  unfold Device.engineNext
  split
  · next hq => exact .setEngine d fun _ => hq
  · exact (Worked.setEngine d).trans (requestData_worked _)
  · exact (Worked.setEngine d).trans (requestData_worked _)
  · exact (Worked.setEngine d).trans (requestAppend_worked _ _ _)
  · exact (Worked.setEngine d).trans (requestAppend_worked _ _ _)
  · exact (Worked.setEngine d).trans (request_worked _)

theorem afterData_worked (d : Device) : Worked d d.afterData := by
  unfold Device.afterData
  split
  · split
    · exact (Worked.setEngine d).trans (requestData_worked _)
    · exact engineNext_worked _
  · exact engineNext_worked _

theorem requestWalkLine_worked (d : Device) (p n : Nat) : Worked d (d.requestWalkLine p n) :=
  request_worked _

theorem select_worked (d : Device) : Worked d d.select := by
  unfold Device.select
  split
  · split
    · exact .refl _
    · exact (Worked.setRollback d _).trans (requestWalkLine_worked _ _ _)
  · exact .refl _

theorem appendToList_worked (d : Device) (c : Ctx) (o : FinishOutcome) : Worked d (d.appendToList c o) :=
  (Worked.setRollback d _).trans (select_worked _)

theorem walkEnds_worked (d : Device) (w : Walk) : Worked d (d.walkEnds w) := by
  unfold Device.walkEnds
  split
  · exact .setRollback d _
  · exact (Worked.setRollback d _).trans (requestAppend_worked _ _ _)

theorem restored_worked (d : Device) (w : Walk) : Worked d (d.restored w) := by
  unfold Device.restored
  dsimp only
  split
  · exact .setRollback d _
  · exact (Worked.setRollback d _).trans (requestWalkLine_worked _ _ _)

/-! ### The host reads and the memory port -/

theorem requestHostLine_worked (d : Device) (l : List Nat) : Worked d (d.requestHostLine l) := by
  unfold Device.requestHostLine
  split
  · exact .refl _
  · exact request_worked _

theorem refreshDue_worked (d : Device) : Worked d d.refreshDue := by
  unfold Device.refreshDue
  split
  · next h =>
    have hlt : d.port.owed < 5 := h
    exact .setPort d (by simp only; omega)
  · exact raise_worked _ _

theorem refreshed_worked (d : Device) : Worked d d.refreshed :=
  (landed_worked d).trans (Worked.setPort _ (by simp only [Device.landed_owed]; omega))

theorem closeBanks_worked (d : Device) : Worked d d.closeBanks := by
  unfold Device.closeBanks
  split
  · exact .setPort d
  · exact .refl _

theorem tryEnter_worked (d : Device) : Worked d d.tryEnter := by
  unfold Device.tryEnter
  split
  · exact (Worked.setPort d).trans (closeBanks_worked _)
  · exact .refl _

theorem closeStart_worked (d : Device) : Worked d d.closeStart := by
  unfold Device.closeStart
  split
  · exact issueAnchor_worked _ _
  · exact .refl _

theorem settle_worked (d : Device) : Worked d d.settle :=
  ((closeStart_worked d).trans (tryEnter_worked _)).trans (grant_worked _)

/-! ### The entry to HOLDING -/

theorem holdRollback_worked (d : Device) : Worked d d.holdRollback := by
  unfold Device.holdRollback
  split
  · split
    · exact (withdraw_worked d _).trans (Worked.setRollback _ _)
    · exact .refl _
  · exact .refl _

theorem holdRequests_worked (d : Device) : Worked d d.holdRequests := .setJournal d

theorem holdPass_worked (d : Device) : Worked d d.holdPass := by
  unfold Device.holdPass
  split
  · split
    · exact (withdraw_worked d _).trans (passStop_worked _ _)
    · exact .refl _
  · exact .refl _

end Sys2Proof.Machine
end

section
/-! What a command can do to the device, said once: a list of kinds of change, and that every command's effect is a path
of them, behind a first change that the command alone can make. Every invariant is derived from this list. -/

namespace Sys2Proof.Machine

/-! ### Kinds of change -/

/-- A context's entry changed where the counts and the ownership table do not look: its counts and its instance stand,
and a context in use stays in use. -/
structure ContextKept (x y : ContextEntry) : Prop where
  queued : y.queued = x.queued
  owned : y.owned = x.owned
  inst : y.inst = x.inst
  used : x.state ≠ .free → y.state ≠ .free

theorem ContextKept.refl (x : ContextEntry) : ContextKept x x := ⟨rfl, rfl, rfl, id⟩

/-- The changes that the evaluation of a cycle is made of (R21-R28, R43-R45). -/
inductive Admission : Device → Device → Prop
  | work {d e : Device} (h : Worked d e) : Admission d e
  | contexts {d e : Device} (hf : unchangedBut [.contexts] d e) (hk : ∀ c, ContextKept (d.ctx c) (e.ctx c)) :
      Admission d e
  | host {d : Device} {h : HostPort} (hm : h.mode ≠ .stopped) : Admission d { d with host := h }
  | placed {d : Device} {e : QEntry} (hq : d.queue.length < 8) : Admission d (d.placeEntry e)
  | logged {d : Device} {line : Nat} {c : Ctx} {needed : WordSet} (hs : (d.ctx c).state ≠ .free)
      (ho : d.ownerOf line = none → d.own.length < 128) : Admission d (d.logWords line c (d.ctx c).inst needed)
  | opened {d : Device} {c : Ctx} {i : Word} {t : LeaseTimer} (hs : (d.ctx c).state = .free) :
      Admission d (d.modifyCtx c fun x => { x with
        state := .opened, inst := i, lease := t, leaseExpired := false, spoil := none, owned := 0, newest := none })

/-- Evaluations compose of admissions. -/
abbrev Admits : Device → Device → Prop := Relation.ReflTransGen Admission

/-- The frame state says what of the frame in progress has arrived. -/
def Management.tied (m : Management) : Prop :=
  match m.current with
  | none => m.frame = .idle ∨ m.frame = .stopped
  | some p =>
    let f : Frame := { bytes := p.bytes, extraBits := 0, ended := false }
    m.frame = framePhase f
      ∧ p.snapshot.map (·.length) = if f.isWrite ∨ p.bytes.length < 3 then none else f.words

theorem frameInv_iff (s : State) : FrameInv s ↔ s.dev.mgmt.tied := Iff.rfl

/-- The changes that a command's effect is made of, but for its first. -/
inductive Change : Device → Device → Prop
  | work {d e : Device} (h : Worked d e) : Change d e
  | contexts {d e : Device} (hf : unchangedBut [.contexts] d e) (hk : ∀ c, ContextKept (d.ctx c) (e.ctx c)) :
      Change d e
  | host {d : Device} {h : HostPort} (hm : h.mode ≠ .stopped)
      (hw : ∀ w, h.mode = .waiting w → ∃ w', d.host.mode = .waiting w') : Change d { d with host := h }
  | evaluated {d : Device} (c : Cycle) (hw : d.part.state = .running ∨ ∃ w, d.host.mode = .waiting w) :
      Change d (d.evaluate c)
  | headLeaves {d : Device} : Change d d.headLeaves
  | finished {d : Device} {c : Ctx} {o : FinishOutcome} : Change d (d.finish c o)
  | located {d : Device} {g : Group} {p : Nat} : Change d (d.setLocators g p)
  | scanned {d : Device} {s : Scan} (hs : d.part.state = .starting) : Change d { d with
      contexts := Vector.ofFn fun i : Fin 4 => (d.contexts[i]).afterScan (s.openInst[i]) (s.closed[i]) }
  | part {d : Device} {p : PartControl} (hs : p.state = .stopped → d.part.state = .stopped)
      (ht : p.state = .starting → d.part.state = .starting) (hr : p.rst = d.part.rst)
      (hp : p.powered = d.part.powered) : Change d { d with part := p }
  | copied {d : Device} (h : d.regions.applyWaiting = true) : Change d d.applyCopy
  | drew {d : Device} {n : Nat} : Change d { d with drawn := n }
  | frame {d : Device} {m : Management} (hs : m.settings = d.mgmt.settings) (ht : d.mgmt.tied → m.tied) :
      Change d { d with mgmt := m }
  | restarted {d : Device} {st : Straps} (h : d.part.state = .held) : Change d (d.beginStart .restart st)

/-- What follows the first change of a command. -/
abbrev Path : Device → Device → Prop := Relation.ReflTransGen Change

/-- A command's first change: for most none; a write completion's line write; the items of a WRITE frame that the region
map or the settings hold; a reset, a start, or the loss of power. -/
inductive Begins : Instr → Device → Device → Prop
  | plain {c : Instr} {d : Device} : Begins c d d
  | written {c : Instr} {d : Device} {u : WriteUse} {w : LineWrite}
      (hc : c ∈ [.appendWriteComplete, .dataWriteComplete, .restoreWriteComplete, .anchorWriteComplete])
      (hf : d.port.inFlight = some (.write u w)) : Begins c d { d.landed with dram := d.dram.writeLine w }
  | pendingWritten {c : Instr} {d : Device} {st : Straps} {ws : List (Nat × Word)}
      (ha : d.regions.applyWaiting = false) (hw : ∀ p ∈ ws, 0x20 ≤ p.1 ∧ p.1 ≤ 0x2F) : Begins c d (d.writeItems st ws)
  | applied {f : Frame} {d : Device} (hv : d.pendingValid = true) : Begins (.applyRequest f) d d.takeApply
  | settingsWritten {c : Instr} {d : Device} {st : Straps} {ws : List (Nat × Word)}
      (hw : ∀ p ∈ ws, (0x50 ≤ p.1 ∧ p.1 ≤ 0x56) ∧ writeGood p.1 p.2 = true) : Begins c d (d.writeItems st ws)
  | reset {d : Device} (hr : d.part.rst = false) :
      Begins .rstAsserted d (Device.stopAll { d with part := { d.part with rst := true } })
  | released {d : Device} {st : Straps} (hr : d.part.rst = true) : Begins (.rstReleased st) d (d.releaseRst st)
  | powered {d : Device} {st : Straps} (hp : d.part.powered = false) (hr : d.part.rst = false) :
      Begins (.powerOnComplete st) d
        (Device.beginStart { d with part := { d.part with powered := true } } .powerOn st)
  | poweredHeld {d : Device} {st : Straps} (hp : d.part.powered = false) (hr : d.part.rst = true) :
      Begins (.powerOnComplete st) d { d with part := { d.part with powered := true } }
  | lost {d : Device} : Begins .powerLoss d d.losePower

/-- STOPPED is tied to RST and power-on, with every block stopped in it. -/
def Device.stoppedTied (d : Device) : Prop :=
  (d.part.state = .stopped ↔ (d.part.rst = true ∨ d.part.powered = false))
    ∧ (d.part.state = .stopped ↔ d.host.mode = .stopped)
    ∧ (d.part.state = .stopped →
        d.engine = .stopped ∧ d.rollback.state = .stopped ∧ d.port.inFlight = none ∧ d.port.waiting = []
          ∧ d.port.timer.running = false ∧ (d.port.state = .unconfigured ∨ d.port.state = .selfRefresh)
          ∧ d.mgmt.frame = .stopped ∧ d.mgmt.current = none)

theorem stoppedInv_iff (s : State) : StoppedInv s ↔ s.dev.stoppedTied := Iff.rfl

/-- How a command that found the device `s` ends behind its changes up to `e`: with what every command settles; or with
nothing to settle, because only the host port and the management port differ from `s`, or because the memory port is not
ACTIVE and no start is in UNDO. -/
inductive Ends (s : Device) : Device → Device → Prop
  | settled {e : Device} : Ends s e e.settle
  | alike {e : Device} (hf : unchangedBut [.host, .mgmt] s e) (hm : e.host.mode = .idle ↔ s.host.mode = .idle) :
      Ends s e e
  | inactive {e : Device}
      (h : s.stoppedTied → e.port.state ≠ .active ∧ (e.part.state = .starting → e.part.phase ≠ some .undo)) : Ends s e e

/-- The effect of the command `c` on the device `s`: its first change, a path, and its end. -/
def Runs (c : Instr) (s t : Device) : Prop := ∃ d e, Begins c s d ∧ Path d e ∧ Ends s e t

theorem Runs.settled {c : Instr} {s e : Device} (h : Path s e) : Runs c s e.settle := ⟨s, e, .plain, h, .settled⟩

theorem Runs.alike {c : Instr} {s e : Device} (h : Path s e) (hf : unchangedBut [.host, .mgmt] s e)
    (hm : e.host.mode = .idle ↔ s.host.mode = .idle) : Runs c s e := ⟨s, e, .plain, h, .alike hf hm⟩

theorem Runs.same {c : Instr} {s : Device} : Runs c s s := .alike .refl (.refl _ _) Iff.rfl

/-! ### Paths -/

theorem Change.path {d e : Device} (h : Change d e) : Path d e := .single h
theorem Admission.admits {d e : Device} (h : Admission d e) : Admits d e := .single h
theorem Worked.path {d e : Device} (h : Worked d e) : Path d e := .single (.work h)
theorem Worked.admits {d e : Device} (h : Worked d e) : Admits d e := .single (.work h)

/-- What every change keeps, a path keeps. -/
theorem Path.keeps {P : Device → Prop} (hP : ∀ d e, Change d e → P d → P e) {d e : Device} (h : Path d e) (hd : P d) :
    P e := by
  induction h with
  | refl => exact hd
  | tail _ hc ih => exact hP _ _ hc ih

/-- What every admission keeps, an evaluation keeps. -/
theorem Admits.keeps {P : Device → Prop} (hP : ∀ d e, Admission d e → P d → P e) {d e : Device} (h : Admits d e)
    (hd : P d) : P e := by
  induction h with
  | refl => exact hd
  | tail _ hc ih => exact hP _ _ hc ih

theorem setPart_path (d : Device) {p : PartControl}
    (hs : p.state = .stopped → d.part.state = .stopped := by exact id)
    (ht : p.state = .starting → d.part.state = .starting := by exact id) (hr : p.rst = d.part.rst := by rfl)
    (hp : p.powered = d.part.powered := by rfl) : Path d { d with part := p } := .single (.part hs ht hr hp)

/-- The entry of a context depends on the contexts alone. -/
theorem Device.ctx_congr {d e : Device} (h : e.contexts = d.contexts) (c : Ctx) : e.ctx c = d.ctx c := by
  unfold Device.ctx
  rw [h]

/-- One entry changed, the others as they stand. -/
theorem modifyCtx_kept {d : Device} {c : Ctx} {f : ContextEntry → ContextEntry} (hf : ContextKept (d.ctx c) (f (d.ctx c)))
    (x : Ctx) : ContextKept (d.ctx x) ((d.modifyCtx c f).ctx x) := by
  by_cases hx : x = c
  · subst hx
    rwa [Device.ctx_modifyCtx]
  · rw [Device.ctx_modifyCtx_ne d c x f hx]
    exact .refl _

theorem modifyCtx_path {d : Device} {c : Ctx} {f : ContextEntry → ContextEntry}
    (hf : ContextKept (d.ctx c) (f (d.ctx c))) : Path d (d.modifyCtx c f) :=
  .single (.contexts (modifyCtx_frame d c f) (modifyCtx_kept hf))

theorem modifyCtx_admits {d : Device} {c : Ctx} {f : ContextEntry → ContextEntry}
    (hf : ContextKept (d.ctx c) (f (d.ctx c))) : Admits d (d.modifyCtx c f) :=
  .single (.contexts (modifyCtx_frame d c f) (modifyCtx_kept hf))

/-! ### Evaluations -/

theorem answer_admits (d : Device) (r : Rsp) (ws : List Word) : Admits d (d.answer r ws) :=
  .single (.host (by simp))

theorem refuse_admits (d : Device) (r : Rsp) (ws : List Word) (a : Word) (x : BitVec 3) (k : CycleKind) :
    Admits d (d.refuse r ws a x k) := .single (Admission.host (d := d) (by simp [Device.answer]))

theorem waitOn_admits (d : Device) (c : Cycle) (w : WaitCond) : Admits d (d.waitOn c w) :=
  .single (.host (by simp))

theorem serve_admits (d : Device) (c : ReadCycle) (o : BurstOrder) (f : Fin 8 → Nat) : Admits d (d.serve c o f) :=
  Relation.ReflTransGen.trans (.single (Admission.host (d := d) (by simp))) (requestHostLine_worked _ _).admits

theorem evalRead_admits (d : Device) (c : ReadCycle) (o : BurstOrder) : Admits d (d.evalRead c o) := by
  unfold Device.evalRead
  split
  · exact refuse_admits _ _ _ _ _ _
  · split
    · exact refuse_admits _ _ _ _ _ _
    · exact refuse_admits _ _ _ _ _ _
    · simp only
      split
      · exact waitOn_admits _ _ _
      · split
        · exact serve_admits _ _ _ _
        · split
          · exact waitOn_admits _ _ _
          · split <;> exact serve_admits _ _ _ _

/-- A queue that is not full has room for an entry (R83, R84). -/
theorem queueFull_iff (d : Device) : d.queueFull = true ↔ 8 ≤ d.queue.length := decide_eq_true_iff

theorem length_lt_of_not_queueFull {d : Device} (h : ¬ d.queueFull = true) : d.queue.length < 8 := by
  rw [queueFull_iff] at h
  omega

theorem admitEntry_admits (d : Device) (c : WriteCycle) (o : BurstOrder) (e : QEntry) :
    Admits d (d.admitEntry c o e) := by
  unfold Device.admitEntry
  split
  · exact waitOn_admits _ _ _
  · next h => exact Relation.ReflTransGen.trans (.single (.placed (length_lt_of_not_queueFull h))) (answer_admits _ _ _)

theorem spoil_admits {d : Device} {x : Ctx} (k : SpoilCause) : Admits d (d.spoil x k) :=
  modifyCtx_admits ⟨rfl, rfl, rfl, fun _ => by simp⟩

theorem logWords_queue (d : Device) (l : Nat) (c : Ctx) (i : Word) (m : WordSet) :
    (d.logWords l c i m).queue = d.queue := logWords_frame d l c i m .queue (by decide)

/-- A LOGGED write of an OPEN context, on a line that it owns or that has room for an entry (R26-R28). -/
theorem admitLogged_admits {d : Device} {c : WriteCycle} {o : BurstOrder} {x : Ctx} (m : WordSet)
    (hs : (d.ctx x).state = .opened) (ho : d.ownerOf (lineWriteOf c o).line = none → d.own.length < 128) :
    Admits d (d.admitLogged c o x m) := by
  unfold Device.admitLogged
  simp only
  split
  · split
    · exact (waitOn_admits _ _ _).trans (requestReclaim_worked _).admits
    · exact (spoil_admits _).trans (refuse_admits _ _ _ _ _ _)
  · split
    · exact waitOn_admits _ _ _
    · next hq =>
      have hroom : ((d.logWords (lineWriteOf c o).line x (d.ctx x).inst m).reserve 14).queue.length < 8 := by
        rw [(reserve_worked _ _).queue, logWords_queue]
        exact length_lt_of_not_queueFull hq
      have hlog : Admits d (d.logWords (lineWriteOf c o).line x (d.ctx x).inst m) :=
        .single (.logged (by rw [hs]; decide) ho)
      exact ((hlog.trans (reserve_worked _ _).admits).trans (.single (.placed hroom))).trans (answer_admits _ _ _)

theorem admitTagged_admits {d : Device} {c : WriteCycle} {o : BurstOrder} {x : Ctx} (hs : (d.ctx x).state = .opened) :
    Admits d (d.admitTagged c o x) := by
  unfold Device.admitTagged
  simp only
  split
  · next e he =>
    split
    · exact admitEntry_admits _ _ _ _
    · exact admitLogged_admits _ hs fun hn => by rw [hn] at he; exact absurd he (by simp)
  · split
    · exact (spoil_admits _).trans (refuse_admits _ _ _ _ _ _)
    · next h => exact admitLogged_admits _ hs fun _ => by simpa [Config.ownershipSize] using h

theorem admitByTag_admits (d : Device) (c : WriteCycle) (o : BurstOrder) (m : RegionMode) :
    Admits d (d.admitByTag c o m) := by
  unfold Device.admitByTag
  split
  · split
    · exact refuse_admits _ _ _ _ _ _
    · exact admitEntry_admits _ _ _ _
  · split
    · next h => exact admitTagged_admits h
    · exact refuse_admits _ _ _ _ _ _

theorem admitJournalled_admits (d : Device) (c : WriteCycle) (o : BurstOrder) (m : RegionMode) :
    Admits d (d.admitJournalled c o m) := by
  unfold Device.admitJournalled
  split
  · split
    · split
      · exact refuse_admits _ _ _ _ _ _
      · exact waitOn_admits _ _ _
    · exact admitByTag_admits _ _ _ _
  · exact admitByTag_admits _ _ _ _

theorem evalWrite_admits (d : Device) (c : WriteCycle) (o : BurstOrder) : Admits d (d.evalWrite c o) := by
  unfold Device.evalWrite
  split
  · exact refuse_admits _ _ _ _ _ _
  · split
    · exact refuse_admits _ _ _ _ _ _
    · exact refuse_admits _ _ _ _ _ _
    · split
      · exact refuse_admits _ _ _ _ _ _
      · split
        · exact answer_admits _ _ _
        · split
          · exact admitEntry_admits _ _ _ _
          · exact admitJournalled_admits _ _ _ _

theorem admitOpen_admits {d : Device} {c : Ctx} (hs : (d.ctx c).state = .free) (hq : d.queue.length < 8) :
    Admits d (d.admitOpen c) := by
  have hr := reserve_worked d Config.openReservation
  have hj : Worked (d.reserve Config.openReservation) { d.reserve Config.openReservation with
      journal := { (d.reserve Config.openReservation).journal with
        nextInst := (takeInstance (d.reserve Config.openReservation).journal.nextInst).2 } } := .setJournal _
  have h2 := hr.trans hj
  unfold Device.admitOpen
  simp only
  refine Relation.ReflTransGen.trans (h2.admits.trans ?_) (answer_admits _ _ _)
  refine Relation.ReflTransGen.trans (.single (.opened ?_)) (.single (.placed ?_))
  · rw [Device.ctx_congr h2.contexts]
    exact hs
  · rw [Device.modifyCtx_queue, h2.queue]
    exact hq

theorem evalOpen_admits (d : Device) (c : Ctx) : Admits d (d.evalOpen c) := by
  unfold Device.evalOpen
  split
  · exact answer_admits _ _ _
  · next hf =>
    split
    · exact answer_admits _ _ _
    · split
      · exact answer_admits _ _ _
      · split
        · split
          · exact (waitOn_admits _ _ _).trans (requestReclaim_worked _).admits
          · exact answer_admits _ _ _
        · split
          · exact waitOn_admits _ _ _
          · next hq => exact admitOpen_admits (by simpa using hf) (length_lt_of_not_queueFull hq)

theorem takeCommit_admits {d : Device} (c : Ctx) (hq : d.queue.length < 8) : Admits d (d.takeCommit c) := by
  unfold Device.takeCommit
  simp only
  have hc : Admits d (d.modifyCtx c fun x => { x with state := .closing, lease := x.lease.stop, commitWaiter := true }) :=
    modifyCtx_admits ⟨rfl, rfl, rfl, fun _ => by simp⟩
  exact (hc.trans (waitOn_admits _ _ _)).trans (.single (.placed hq))

theorem evalCommit_admits (d : Device) (c : Ctx) : Admits d (d.evalCommit c) := by
  unfold Device.evalCommit
  split
  · split
    · exact waitOn_admits _ _ _
    · next hq => exact takeCommit_admits c (length_lt_of_not_queueFull hq)
  all_goals exact answer_admits _ _ _

theorem evaluate_admits (d : Device) (c : Cycle) : Admits d (d.evaluate c) := by
  cases c
  · exact evalRead_admits _ _ _
  · exact evalWrite_admits _ _ _
  · exact evalOpen_admits _ _
  · exact evalCommit_admits _ _

/-! ### Evaluation again, and what the region map sees -/

theorem wake_path (d : Device) (p : WaitCond → Bool) : Path d (d.wake p) := by
  unfold Device.wake
  split
  · next w hw =>
    split
    · exact .single (.evaluated _ (Or.inr ⟨w, hw⟩))
    · exact .refl
  · exact .refl

theorem copyIfQuiet_path (d : Device) : Path d d.copyIfQuiet := by
  unfold Device.copyIfQuiet
  split
  · next h => exact .single (.copied h.1)
  · exact .refl

theorem observe_path (d : Device) (p : WaitCond → Bool) : Path d (d.observe p) := by
  unfold Device.observe
  split
  · next h =>
    simp only
    split
    · exact (Relation.ReflTransGen.trans (.single .drew) (.single (.copied h.1))).trans (wake_path _ _)
    · exact (Relation.ReflTransGen.trans (.single .drew) (wake_path _ _)).trans (copyIfQuiet_path _)
  · exact (copyIfQuiet_path d).trans (wake_path _ _)

theorem answer_path (d : Device) (r : Rsp) (ws : List Word) : Path d (d.answer r ws) :=
  .single (.host (by simp) (by simp))

theorem refuse_path (d : Device) (r : Rsp) (ws : List Word) (a : Word) (x : BitVec 3) (k : CycleKind) :
    Path d (d.refuse r ws a x k) :=
  .single (Change.host (d := d) (by simp [Device.answer]) (by simp [Device.answer]))

/-- A cycle taken: evaluated in RUNNING, answered elsewhere (R19, R20). -/
theorem takeCycle_runs {i : Instr} {d : Device} {zeros : List Word} {eval : Device → Device}
    (h : ∀ x : Device, x.part.state = .running → Path x (eval x)) : Runs i d (d.takeCycle zeros eval) := by
  unfold Device.takeCycle
  split
  · next hi =>
    have hclear : Path d { d with host := { d.host with answer := none } } :=
      .single (.host (by simp [hi]) (by simp [hi]))
    have answered : ∀ code, Runs i d (Device.answer { d with host := { d.host with answer := none } } code zeros) :=
      fun code => .alike (hclear.trans (answer_path _ _ _))
        ((host_frame d _).comp (answer_frame _ _ _) (by decide) (by decide)) (by simp [hi])
    simp only
    split
    · next hr => exact .settled (hclear.trans (h _ hr))
    · exact answered _
    · exact answered _
    · exact answered _
    · exact .same
  · exact .same

theorem undo_path (d : Device) (c : Ctx) (o : FinishOutcome) : Path d (d.undo c o) :=
  (modifyCtx_path ⟨rfl, rfl, rfl, fun _ => by simp⟩).trans (appendToList_worked _ _ _).path

theorem clearWaiter_path (d : Device) (k : WaitCond) : Path d (d.clearWaiter k) := by
  unfold Device.clearWaiter
  split
  · exact modifyCtx_path ⟨rfl, rfl, rfl, id⟩
  all_goals exact .refl

theorem waitExpired_path (d : Device) (w : Waiting) : Path d (d.waitExpired w) := by
  unfold Device.waitExpired
  split
  · exact (clearWaiter_path _ _).trans (answer_path _ _ _)
  all_goals exact answer_path _ _ _

theorem leaseExpired_path (d : Device) (c : Ctx) : Path d (d.leaseExpired c) := by
  unfold Device.leaseExpired
  split
  · have hflag : Path d (d.modifyCtx c fun x => { x with leaseExpired := true, lease := x.lease.stop }) :=
      modifyCtx_path ⟨rfl, rfl, rfl, id⟩
    exact hflag.trans ((Worked.setMgmt _).trans (raise_worked _ _)).path
  · have hflag : Path d (d.modifyCtx c fun x => { x with leaseExpired := true }) :=
      modifyCtx_path ⟨rfl, rfl, rfl, id⟩
    have hm := undo_frame (d.modifyCtx c fun x => { x with leaseExpired := true }) c .revoked .mgmt (by decide)
    refine (hflag.trans (undo_path _ c .revoked)).trans ((Worked.setMgmt _ ?_ ⟨?_, ?_⟩).trans (raise_worked _ _)).path
    all_goals rw [hm]

theorem hostLineRead_path {d e : Device} {line : Nat} {ws : List Word} (h : d.hostLineRead line ws = .next e) :
    ∃ y, Path d y ∧ e = y.settle := by
  unfold Device.hostLineRead at h
  split at h
  · split at h
    · exact ⟨_, answer_path _ _ _, (Host.Outcome.next.inj h).symm⟩
    · exact ⟨_, (Change.path (.host (d := d) (by simp) (by simp))).trans (requestHostLine_worked _ _).path,
        (Host.Outcome.next.inj h).symm⟩
  · exact absurd h (by simp)

/-! ### Records, walks and headers -/

theorem setNewest_path (d : Device) (c : Ctx) (p : Nat) : Path d (d.setNewest c p) :=
  modifyCtx_path ⟨rfl, rfl, rfl, id⟩

theorem answerCommitted_path (d : Device) (c : Ctx) : Path d (d.answerCommitted c) := by
  unfold Device.answerCommitted
  split
  · exact (modifyCtx_path ⟨rfl, rfl, rfl, id⟩).trans (answer_path _ _ _)
  · exact .refl

theorem appenderRule_path (d : Device) (a : Append) : Path d (d.appenderRule a) := by
  unfold Device.appenderRule
  split
  · exact ((setNewest_path d _ _).trans (.single .headLeaves)).trans (engineNext_worked _).path
  · unfold Device.beforeComplete
    split
    · exact (Relation.ReflTransGen.trans (.single .located) (setNewest_path _ _ _)).trans
        ((Worked.setEngine _).trans (requestData_worked _)).path
    · exact .refl
  · exact ((Relation.ReflTransGen.trans (.single .finished) (answerCommitted_path _ _)).trans (.single .headLeaves)).trans
      ((engineNext_worked _).trans (requestPass_worked _)).path
  · refine Relation.ReflTransGen.trans (.single (.finished (c := a.req.ctx) (o := outcomeOfCode a.req.byte1))) ?_
    exact ((Worked.setRollback _ _).path.trans (setPart_path _)).trans
      ((select_worked _).trans (requestPass_worked _)).path
  · exact .refl

theorem recordComplete_path (d : Device) (a : Append) : Path d (d.recordComplete a) :=
  ((((recordLanded_worked d a).trans (beginWaitingAppend_worked _)).path.trans (appenderRule_path _ a)).trans
    (select_worked _).path).trans (observe_path _ _)

theorem appendWritten_path (d : Device) (a : Append) : Path d (d.appendWritten a) := by
  unfold Device.appendWritten
  split
  · exact ((Worked.setJournal d).trans (requestAppendWrite_worked _ _)).path
  · split
    · exact (padComplete_worked _ _ _).path
    · exact recordComplete_path _ _

theorem dataWritten_path (d : Device) (e : QEntry) : Path d (d.dataWritten e) :=
  (Relation.ReflTransGen.trans (.single .headLeaves)
    ((afterData_worked _).trans (select_worked _)).path).trans (observe_path _ _)

theorem walkRead_worked {d e : Device} {w : Walk} (h : d.walkRead w = .next e) : ∃ y, Worked d y ∧ e = y.settle := by
  have more : Worked d (Device.requestWalkLine { d with rollback := { d.rollback with walk := some w } } w.pos
      w.words.length) := (Worked.setRollback d _).trans (requestWalkLine_worked _ _ _)
  unfold Device.walkRead at h
  simp only at h
  split at h
  · exact ⟨_, more, (Host.Outcome.next.inj h).symm⟩
  · split at h
    · exact ⟨_, walkEnds_worked _ _, (Host.Outcome.next.inj h).symm⟩
    · split at h
      · exact ⟨_, more, (Host.Outcome.next.inj h).symm⟩
      · exact ⟨_, (Worked.setRollback d _).trans (request_worked _), (Host.Outcome.next.inj h).symm⟩
    · exact absurd h (by simp)

theorem headerLine_worked {d e : Device} {ws : List Word} (h : d.headerLine ws = .next e) :
    ∃ y, Worked d y ∧ e = y.settle := by
  unfold Device.headerLine at h
  split at h
  · exact ⟨_, .refl _, (Host.Outcome.next.inj h).symm⟩
  · simp only at h
    split at h
    · exact ⟨_, (Worked.setJournal d).trans (requestHeader_worked _ _), (Host.Outcome.next.inj h).symm⟩
    · split at h
      · exact ⟨_, headerRead_worked _ _ _, (Host.Outcome.next.inj h).symm⟩
      · exact absurd h (by simp)

/-! ### Starts and holds -/

theorem enterRunning_path (d : Device) : Path d d.enterRunning := by
  have hpart : ∀ r : Report, Path d { d with part := { d.part with state := .running, phase := none, report := r } } :=
    fun _ => setPart_path d (by simp) (by simp)
  unfold Device.enterRunning
  simp only
  split
  · exact (hpart _).trans ((raise_worked _ _).trans (raise_worked _ _)).path
  · exact (hpart _).trans (raise_worked _ _).path

theorem anchorWritten_path (d : Device) (w : AnchorWrite) : Path d (d.anchorWritten w) := by
  unfold Device.anchorWritten
  simp only
  refine Relation.ReflTransGen.trans ?_ (observe_path _ _)
  split
  · exact (formatLanded_worked _).path
  · split
    · exact (anchorLanded_worked _ _).path.trans (enterRunning_path _)
    · exact ((anchorLanded_worked _ _).trans (anchorNext_worked _ _)).path

theorem endScan_path {d : Device} (s : Scan) (why : StopReason) (h : d.part.state = .starting) :
    Path d (d.endScan s why) := by
  unfold Device.endScan
  refine Relation.ReflTransGen.trans ?_ (select_worked _).path
  refine Relation.ReflTransGen.trans (Worked.setJournal d (j := d.journal.afterScan s) (Nat.zero_le _)).path ?_
  refine Relation.ReflTransGen.trans (.single (.scanned (s := s) h)) ?_
  refine Relation.ReflTransGen.trans (Worked.setRollback _ { d.rollback with list := s.listed }).path ?_
  exact setPart_path _

theorem scanOn_path {d : Device} (s : Scan) (h : d.part.state = .starting) : Path d (d.scanOn s) := by
  unfold Device.scanOn
  split
  · exact (setPart_path d).trans (request_worked (a := .read .scan _) _).path
  · exact (setPart_path d).trans (request_worked (a := .read .scan _) _).path
  · exact endScan_path _ _ h

theorem anchorRead_path (d : Device) (ws : List Word) : Path d (d.anchorRead ws) := by
  unfold Device.anchorRead
  split
  · next hs =>
    have hc := setCondition_worked d ws
    have hreport : ∀ (ph : Option StartPhase) (r : Report), Path d { d.setCondition ws with
        part := { (d.setCondition ws).part with phase := ph, report := r } } := fun ph r =>
      hc.path.trans (setPart_path _)
    simp only
    split
    · refine (hreport _ _).trans (scanOn_path _ ?_)
      simp only [hc.part]
      exact hs.1
    · exact (hreport (d.setCondition ws).part.phase _).trans (enterRunning_path _)
  · exact .refl

theorem scanLine_path (d : Device) (line : Nat) (ws : List Word) : Path d (d.scanLine line ws) := by
  unfold Device.scanLine
  split
  · next hs _ => exact scanOn_path _ hs
  · exact .refl

theorem stopLeases_path (d : Device) : Path d d.stopLeases := by
  refine .single (.contexts (stopLeases_frame d) fun c => ?_)
  have hc : d.stopLeases.ctx c = { d.ctx c with lease := (d.ctx c).lease.stop } := by
    simp [Device.stopLeases, Device.ctx]
  rw [hc]
  exact ⟨rfl, rfl, rfl, id⟩

theorem holdHost_path (d : Device) : Path d d.holdHost := by
  unfold Device.holdHost
  split
  · exact (clearWaiter_path _ _).trans (answer_path _ _ _)
  · exact .single (.host (by simp) (by simp))
  all_goals exact .refl

theorem enterHolding_path (d : Device) : Path d d.enterHolding := by
  have hpart : Path d { d with part := { d.part with state := .holding, scan := none } } :=
    setPart_path d (by simp) (by simp)
  exact ((hpart.trans (holdHost_path _)).trans (stopLeases_path _)).trans
    (((holdRollback_worked _).trans (holdRequests_worked _)).trans (holdPass_worked _)).path

theorem holdReact_path (d : Device) : Path d d.holdReact := by
  unfold Device.holdReact
  split
  · exact enterHolding_path _
  · exact .refl
  · exact enterHolding_path _
  all_goals exact .refl

theorem restartIfFree_path (d : Device) (st : Straps) : Path d (d.restartIfFree st) := by
  unfold Device.restartIfFree
  split
  · next h => exact .single (.restarted h.1)
  · exact .refl

theorem bringUpReport_path (d : Device) : Path d d.bringUpReport := by
  have hport : Worked d { d with
      port := { d.port with state := .active, banks := banksClosed, owed := 0, timer := d.freshRefresh } } :=
    .setPort d (Nat.zero_le _)
  have hup := hport.path.trans (setPart_path _ (p := { d.part with broughtUp := true }))
  unfold Device.bringUpReport
  simp only
  split
  · exact hup.trans (enterHolding_path _)
  · exact (hup.trans (setPart_path _)).trans (request_worked (a := .read .anchor _) _).path

theorem warn_path (d : Device) : Path d d.warn := by
  unfold Device.warn
  split
  · exact .refl
  · exact (setPart_path d).trans (holdReact_path _)

theorem takeHold_path (d : Device) : Path d d.takeHold :=
  (setPart_path d).trans (holdReact_path _)

theorem takeRelease_path (d : Device) (st : Straps) : Path d (d.takeRelease st) :=
  (setPart_path d).trans (restartIfFree_path _ _)

theorem writeCommand_path (d : Device) (st : Straps) (v : Word) : Path d (d.writeCommand st v) := by
  unfold Device.writeCommand
  split
  · exact (takeFormat_worked _).path
  · split
    · exact takeHold_path _
    · split
      · exact takeRelease_path _ _
      · exact .refl

end Sys2Proof.Machine
end

section
/-! Every command's effect as a first change and a path, and the frames' tests and items on the way. -/

namespace Sys2Proof.Machine

/-! ### Outcomes -/

theorem onDevice_eq_next {s t : State} {r : Host.Outcome Device Fault Refusal} :
    s.onDevice r = .next t ↔ ∃ d, r = .next d ∧ t = s.withDev d := by
  cases r with
  | next d => simp [eq_comm]
  | fault f => simp
  | refused f => simp

/-- A line read completes where one for the use is in flight, inside the DRAM (R149, R150, R155). -/
theorem readDone_eq_next {d e : Device} {use : ReadUse}
    {k : Device → Nat → List Word → Host.Outcome Device Fault Refusal} :
    d.readDone use k = .next e ↔ ∃ line, d.port.inFlight = some (.read use line) ∧ d.inDram line = true
      ∧ k d.landed line (d.dram.readLine line) = .next e := by
  unfold Device.readDone
  split
  · next u line hf =>
    rw [hf]
    by_cases hu : u = use
    · subst hu
      by_cases hd : d.inDram line = true <;> simp [hd]
    · simp [hu]
  · next hno => simpa using fun line hf => absurd hf (hno use line)

/-- A line write completes where one of its use is in flight, inside the DRAM (R149, R150, R155). -/
theorem writeDone_eq_next {d e : Device} {p : WriteUse → Bool} {k : Device → Host.Outcome Device Fault Refusal} :
    d.writeDone p k = .next e ↔ ∃ u w, d.port.inFlight = some (.write u w) ∧ p u = true ∧ d.inDram w.line = true
      ∧ k { d.landed with dram := d.dram.writeLine w } = .next e := by
  unfold Device.writeDone
  split
  · next u w hf =>
    rw [hf]
    by_cases hp : p u = true
    · by_cases hd : d.inDram w.line = true
      · constructor
        · intro h
          rw [if_pos hp, if_pos hd] at h
          exact ⟨u, w, rfl, hp, hd, h⟩
        · rintro ⟨u', w', hf', _, _, h⟩
          obtain ⟨rfl, rfl⟩ : u = u' ∧ w = w' := by simpa using hf'
          rw [if_pos hp, if_pos hd]
          exact h
      · constructor
        · intro h
          simp [hp, hd] at h
        · rintro ⟨u', w', hf', _, hd', _⟩
          obtain ⟨rfl, rfl⟩ : u = u' ∧ w = w' := by simpa using hf'
          exact absurd hd' hd
    · constructor
      · intro h
        simp [hp] at h
      · rintro ⟨u', w', hf', hp', _⟩
        obtain ⟨rfl, rfl⟩ : u = u' ∧ w = w' := by simpa using hf'
        exact absurd hp' hp
  · next hno =>
    constructor
    · intro h
      exact absurd h (by simp)
    · rintro ⟨u, w, hf, _⟩
      exact absurd hf (hno u w)

/-- The bits of a frame are looked at outside STOPPED, and go on with those of the frame in progress (R187). -/
theorem clockFrame_eq_next {d e : Device} {f : Frame} {ends : Device → Device} :
    d.clockFrame f ends = .next e ↔ (d.part.state = .stopped ∧ e = d)
      ∨ (d.part.state ≠ .stopped ∧ d.continues f = true ∧ e = if f.ended then ends d else d.frameGoesOn f) := by
  unfold Device.clockFrame
  by_cases hs : d.part.state = .stopped
  · rw [if_pos hs]
    exact ⟨fun h => Or.inl ⟨hs, (Host.Outcome.next.inj h).symm⟩,
      fun h => h.elim (fun k => congrArg _ k.2.symm) fun k => absurd hs k.1⟩
  · rw [if_neg hs]
    by_cases hc : d.continues f = true
    · rw [if_pos hc]
      exact ⟨fun h => Or.inr ⟨hs, hc, (Host.Outcome.next.inj h).symm⟩,
        fun h => h.elim (fun k => absurd k.1 hs) fun k => congrArg _ k.2.2.symm⟩
    · rw [if_neg hc]
      exact ⟨fun h => absurd h (by simp), fun h => h.elim (fun k => absurd k.1 hs) fun k => absurd k.2.1 hc⟩

theorem frameOfRow_eq_next {d e : Device} {row : FrameRow} {f : Frame} {st : Straps} :
    d.frameOfRow row f st = .next e ↔ f.fits row = true ∧ d.clockFrame f (fun x => x.writeFrame f st) = .next e := by
  unfold Device.frameOfRow
  by_cases hf : f.fits row = true <;> simp [hf]

/-! ### Frames: the frame state -/

/-- The bytes of a frame in progress are a prefix of those that go on with it (R187). -/
theorem continues_prefix {d : Device} {f : Frame} {p : FrameInProgress} (hc : d.continues f = true)
    (hp : d.mgmt.current = some p) : p.bytes <+: f.bytes := by
  unfold Device.continues at hc
  rw [hp] at hc
  exact List.isPrefixOf_iff_prefix.mp hc

/-- A byte that a prefix has is the byte of the whole. -/
theorem getD_of_prefix {a b : List Byte} (h : a <+: b) {i : Nat} (hi : i < a.length) (x : Byte) :
    b.getD i x = a.getD i x := by
  obtain ⟨c, rfl⟩ := h
  rw [List.getD_append _ _ _ _ hi]

/-- A frame's direction and length lie in its command byte (R186). -/
theorem words_of_prefix {f g : Frame} (h : f.bytes <+: g.bytes) (hf : 0 < f.bytes.length) :
    g.words = f.words ∧ g.isWrite = f.isWrite := by
  have hb : g.command = f.command := getD_of_prefix h hf 0
  unfold Frame.words Frame.isWrite
  rw [hb]
  exact ⟨rfl, rfl⟩

/-- The snapshot of a READ that declares a length has one value for each of its words (R189). -/
theorem snapshotFor_length {d : Device} {f : Frame} (hc : d.continues f = true) (ht : d.mgmt.tied) :
    (d.snapshotFor f).map (·.length) = if f.isWrite ∨ f.bytes.length < 3 then none else f.words := by
  unfold Device.snapshotFor
  by_cases hg : f.isWrite ∨ f.bytes.length < 3
  · rw [if_pos hg, if_pos hg]
    rfl
  · rw [if_neg hg, if_neg hg]
    cases htaken : d.mgmt.current.bind (·.snapshot) with
    | some taken =>
      obtain ⟨p, hp, hsnap⟩ := Option.bind_eq_some_iff.mp htaken
      have hlen : p.snapshot.map (·.length) = if (Frame.mk p.bytes 0 false).isWrite ∨ p.bytes.length < 3 then none
          else (Frame.mk p.bytes 0 false).words := by
        unfold Management.tied at ht
        rw [hp] at ht
        exact ht.2
      rw [hsnap] at hlen
      split at hlen
      · exact absurd hlen (by simp)
      · next hng =>
        have hpre := words_of_prefix (f := Frame.mk p.bytes 0 false) (continues_prefix hc hp)
          (by simp only; omega)
        rw [hpre.1]
        exact hlen
    | none => cases hw : f.words <;> simp

/-- A frame in progress stays tied to what has arrived of it (R187, R189). -/
theorem frameGoesOn_tied {d : Device} {f : Frame} (hc : d.continues f = true) (ht : d.mgmt.tied) :
    (d.frameGoesOn f).mgmt.tied := ⟨rfl, snapshotFor_length hc ht⟩

theorem frameGoesOn_path {d : Device} {f : Frame} (hc : d.continues f = true) : Path d (d.frameGoesOn f) :=
  .single (.frame rfl (frameGoesOn_tied hc))

theorem endFrame_path (d : Device) (f : Frame) (out : Device) (r : FrameResult) : Path d (d.endFrame f out r) :=
  .single (.frame rfl fun _ => Or.inl rfl)

/-! ### Frames: the tests and the items -/

/-- A frame that is neither too short nor too long and whose check byte matches is judged by its items (R190). -/
theorem writeResult_of_arrives {d : Device} {f : Frame} {w : Nat} (h : frameArrives f w) :
    d.writeResult f = if !(f.writes w).all fun p => writeGood p.1 p.2 then .badItem
      else if (f.writes w).any fun p => d.writeRefused p.1 p.2 then .refused else .ok := by
  obtain ⟨_, hw, hs, hl, hg⟩ := h
  unfold Device.writeResult
  simp only [hw, hs, hl, hg, Bool.not_true, Bool.false_eq_true, if_false]

/-- A WRITE frame is OK when every test passes (R190). -/
theorem writeResult_ok {d : Device} {f : Frame} (h : d.writeResult f = .ok) (he : f.ended = true) :
    ∃ w, frameArrives f w ∧ (∀ p ∈ f.writes w, writeGood p.1 p.2 = true)
      ∧ ∀ p ∈ f.writes w, d.writeRefused p.1 p.2 = false := by
  unfold Device.writeResult at h
  cases hw : f.words with
  | none => simp [hw] at h
  | some w =>
    simp only [hw] at h
    split_ifs at h with h1 h2 h3 h4 h5
    refine ⟨w, ⟨he, hw, by simpa using h1, by simpa using h2, by simpa using h3⟩, ?_, ?_⟩
    · simpa using h4
    · simpa using h5

/-- The numbers of the items that are written (R192). -/
theorem writeGood_range {n : Nat} {v : Word} (h : writeGood n v = true) :
    (0x20 ≤ n ∧ n ≤ 0x2F) ∨ n = 0x40 ∨ (0x50 ≤ n ∧ n ≤ 0x56) ∨ n = 0x60 ∨ n = 0x70 ∨ n = 0x71 := by
  unfold writeGood at h
  split_ifs at h
  · omega
  · omega
  · omega
  · omega
  · simp at h
    omega

theorem mem_writes {f : Frame} {w : Nat} {p : Nat × Word} :
    p ∈ f.writes w ↔ ∃ k, k < w ∧ p = (f.item + k, f.word k) := by
  simp [Frame.writes, eq_comm]

/-- The items of a WRITE frame that passes the item test are of one kind: of the pending table, APPLY alone, settings,
COMMAND alone, or of the alert unit (R192). -/
inductive ItemsOfOneKind (f : Frame) (w : Nat) : Prop
  | pendingTable (h : 0x20 ≤ f.item ∧ f.item + w ≤ 0x30)
  | apply (h : f.item = 0x40 ∧ w = 1)
  | settings (h : 0x50 ≤ f.item ∧ f.item + w ≤ 0x57)
  | command (h : f.item = 0x60 ∧ w = 1)
  | alerts (h : 0x70 ≤ f.item ∧ f.item + w ≤ 0x72)

theorem itemsOfOneKind {f : Frame} {w : Nat} (hw : 0 < w) (h : ∀ p ∈ f.writes w, writeGood p.1 p.2 = true) :
    ItemsOfOneKind f w := by
  have range : ∀ k, k < w → _ := fun k hk => writeGood_range (h _ (mem_writes.mpr ⟨k, hk, rfl⟩))
  have first := range 0 hw
  have past : ∀ n, f.item ≤ n → n < f.item + w → _ := fun n h1 h2 => range (n - f.item) (by omega)
  by_cases h0 : 0x20 ≤ f.item ∧ f.item ≤ 0x2F
  · refine .pendingTable ⟨h0.1, ?_⟩
    by_contra hn
    have := past 0x30 (by omega) (by omega)
    omega
  by_cases h1 : f.item = 0x40
  · refine .apply ⟨h1, ?_⟩
    by_contra hn
    have := past 0x41 (by omega) (by omega)
    omega
  by_cases h2 : 0x50 ≤ f.item ∧ f.item ≤ 0x56
  · refine .settings ⟨h2.1, ?_⟩
    by_contra hn
    have := past 0x57 (by omega) (by omega)
    omega
  by_cases h3 : f.item = 0x60
  · refine .command ⟨h3, ?_⟩
    by_contra hn
    have := past 0x61 (by omega) (by omega)
    omega
  · refine .alerts ⟨by omega, ?_⟩
    by_contra hn
    have := past 0x72 (by omega) (by omega)
    omega

/-- A frame declares one, two or four words (R186). -/
theorem words_pos {f : Frame} {w : Nat} (h : f.words = some w) : w = 1 ∨ w = 2 ∨ w = 4 := by
  unfold Frame.words at h
  simp only at h
  split_ifs at h <;> simp at h <;> omega

theorem writes_one (f : Frame) : f.writes 1 = [(f.item, f.word 0)] := by
  simp [Frame.writes]

/-- The alert items change the alert unit alone (R197, R198). -/
theorem writeItem_alert_worked (d : Device) (st : Straps) {n : Nat} (v : Word) (h : n = 0x70 ∨ n = 0x71) :
    Worked d (d.writeItem st n v) := by
  rcases h with rfl | rfl
  · exact .setMgmt d
  · exact .setMgmt d

theorem writeItems_alerts_worked (st : Straps) {ws : List (Nat × Word)} (h : ∀ p ∈ ws, p.1 = 0x70 ∨ p.1 = 0x71)
    (d : Device) : Worked d (d.writeItems st ws) := by
  induction ws generalizing d with
  | nil => exact .refl _
  | cons p ps ih =>
    exact (writeItem_alert_worked d st p.2 (h p List.mem_cons_self)).trans
      (ih (fun q hq => h q (List.mem_cons_of_mem _ hq)) _)

/-! ### Frames: the rows -/

theorem row_of_read {f : Frame} (hl : 1 ≤ f.bytes.length) (h : f.isWrite = false) : f.row = .read := by
  unfold Frame.row
  rw [if_neg (by omega : f.bytes.length ≠ 0), if_pos (by simp [h])]

/-- The row of a WRITE frame that has its item and its first word (R192, R196, log 26). -/
theorem row_of_write {f : Frame} (hl : 7 ≤ f.bytes.length) (hw : f.isWrite = true) (hn : f.words ≠ none) :
    f.row = if 0x20 ≤ f.item ∧ f.item ≤ 0x2F then .pendingTable
      else if 0x30 ≤ f.item ∧ f.item ≤ 0x3F then .activeTable
      else if f.item = 0x40 then .apply
      else if f.item = 0x60 ∧ f.word 0 = 1 then .format
      else if f.item = 0x60 ∧ f.word 0 = 2 then .hold
      else if f.item = 0x60 ∧ f.word 0 = 3 then .release
      else if f.item = 0x70 then .causesClear
      else if f.item = 0x71 then .maskWrite
      else .setting := by
  have hsome : f.words.isNone = false := Option.isNone_eq_false_iff.mpr (Option.isSome_iff_ne_none.mpr hn)
  unfold Frame.row
  rw [if_neg (by omega : f.bytes.length ≠ 0), if_neg (by simp [hw]),
    if_neg (by simp only [hsome, Bool.false_or, decide_eq_true_eq]; omega)]
  simp only [hl, true_and]

section
variable {f : Frame} {w : Nat}

theorem frameArrives.length (h : frameArrives f w) : 3 + 4 * w ≤ f.bytes.length := by
  have := of_decide_eq_false h.2.2.1
  unfold Frame.declared at this
  omega

theorem frameArrives.words_pos (h : frameArrives f w) : w = 1 ∨ w = 2 ∨ w = 4 := Machine.words_pos h.2.1

theorem isWrite_of_row (hl : 1 ≤ f.bytes.length) (h : f.row ≠ .read) : f.isWrite = true := by
  by_contra hw
  exact h (row_of_read hl (by simpa using hw))

theorem frameArrives.row_apply (h : frameArrives f w) (hr : f.row ≠ .read) (hi : f.item = 0x40) : f.row = .apply := by
  have hl := h.length
  have hw := h.words_pos
  rw [row_of_write (by omega) (isWrite_of_row (by omega) hr) (by rw [h.2.1]; simp), hi]
  rfl

theorem row_of_fits {row : FrameRow} (h : f.fits row = true) (he : f.ended = true) : f.row = row := by
  unfold Frame.fits at h
  rw [if_pos he] at h
  exact of_decide_eq_true h

end

/-- The effect of a WRITE frame: a first change for the region map and the settings, a path else (R190). -/
theorem writeEffect_begins {c : Instr} {d : Device} {f : Frame} (st : Straps) (he : f.ended = true)
    (hrow : f.row ≠ .read) (hc : f.row = .apply → c = .applyRequest f) :
    ∃ d1, Begins c d d1 ∧ Path d1 (d.writeEffect f st (d.writeResult f)) := by
  unfold Device.writeEffect
  split
  · next w hr hw =>
    obtain ⟨w', harrives, hgood, hfree⟩ := writeResult_ok hr he
    obtain rfl : w = w' := Option.some.inj (hw.symm.trans harrives.2.1)
    have hpos := words_pos hw
    have hmem : ∀ p ∈ f.writes w, f.item ≤ p.1 ∧ p.1 < f.item + w := fun p hp => by
      obtain ⟨k, hk, rfl⟩ := mem_writes.mp hp
      simp only
      omega
    have hfirst := hfree _ (mem_writes.mpr ⟨0, by omega, rfl⟩)
    cases itemsOfOneKind (by omega) hgood with
    | pendingTable h =>
      have ha : d.regions.applyWaiting = false := by
        have hin : 0x20 ≤ f.item + 0 ∧ f.item + 0 ≤ 0x2F := by omega
        simpa only [Device.writeRefused, hin, and_self, if_true] using hfirst
      exact ⟨_, .pendingWritten ha fun p hp => by have := hmem p hp; omega, .refl⟩
    | apply h =>
      obtain ⟨hi, rfl⟩ := h
      obtain rfl := hc (harrives.row_apply hrow hi)
      have hv : d.pendingValid = true := by
        simp [Device.writeRefused, hi] at hfirst
        exact hfirst.2
      refine ⟨_, .applied hv, ?_⟩
      rw [writes_one, hi]
      exact .refl
    | settings h =>
      exact ⟨_, .settingsWritten fun p hp => ⟨by have := hmem p hp; omega, hgood p hp⟩, .refl⟩
    | command h =>
      obtain ⟨hi, rfl⟩ := h
      refine ⟨d, .plain, ?_⟩
      rw [writes_one, hi]
      exact writeCommand_path _ _ _
    | alerts h =>
      exact ⟨d, .plain, (writeItems_alerts_worked st (fun p hp => by have := hmem p hp; omega) d).path⟩
  · exact ⟨d, .plain, (raise_worked _ _).path⟩
  · exact ⟨d, .plain, .refl⟩

theorem frameGoesOn_runs {c : Instr} {d : Device} {f : Frame} (hc : d.continues f = true) :
    Runs c d (d.frameGoesOn f) :=
  .alike (frameGoesOn_path hc) ((frameGoesOn_frame d f).mono (by decide)) Iff.rfl

theorem frameOfRow_runs {c : Instr} {d e : Device} {row : FrameRow} {f : Frame} {st : Straps}
    (h : d.frameOfRow row f st = .next e) (hrow : row ≠ .read) (hc : row = .apply → c = .applyRequest f) :
    Runs c d e := by
  obtain ⟨hfits, h⟩ := frameOfRow_eq_next.mp h
  rcases clockFrame_eq_next.mp h with ⟨_, rfl⟩ | ⟨_, hc, rfl⟩
  · exact .same
  · split
    · next he =>
      obtain rfl := row_of_fits hfits he
      obtain ⟨d1, hb, hp⟩ := writeEffect_begins (d := d) st he hrow hc
      exact ⟨d1, _, hb, hp.trans (endFrame_path _ _ _ _), .settled⟩
    · exact frameGoesOn_runs hc

/-! ### Commands -/

theorem takeMark_eq_next {s t : State} {k : MarkKind} {m : MarkCycle} {eval : Ctx → Device → Device}
    (h : s.takeMark k m eval = .next t) :
    ∃ c, markRequest m.addr = some (k, c) ∧ t = s.withDev (s.dev.takeCycle [0] (eval c)) := by
  unfold State.takeMark at h
  split at h
  · next x c hm =>
    split at h
    · next hx => exact ⟨c, hx ▸ hm, (Host.Outcome.next.inj h).symm⟩
    · exact absurd h (by simp)
  · exact absurd h (by simp)

theorem readDone_runs {c : Instr} {d e : Device} {use : ReadUse}
    {k : Device → Nat → List Word → Host.Outcome Device Fault Refusal} (h : d.readDone use k = .next e)
    (hk : ∀ (x : Device) (line : Nat) (ws : List Word), k x line ws = .next e → ∃ y, Path x y ∧ e = y.settle) :
    Runs c d e := by
  obtain ⟨line, _, _, h⟩ := readDone_eq_next.mp h
  obtain ⟨y, hy, rfl⟩ := hk _ _ _ h
  exact .settled ((landed_worked d).path.trans hy)

theorem writeDone_runs {c : Instr} {d e : Device} {p : WriteUse → Bool}
    {k : Device → Host.Outcome Device Fault Refusal}
    (hc : c ∈ [Instr.appendWriteComplete, .dataWriteComplete, .restoreWriteComplete, .anchorWriteComplete])
    (h : d.writeDone p k = .next e) (hk : ∀ x : Device, k x = .next e → ∃ y, Path x y ∧ e = y.settle) :
    Runs c d e := by
  obtain ⟨u, w, hf, _, _, h⟩ := writeDone_eq_next.mp h
  obtain ⟨y, hy, rfl⟩ := hk _ h
  exact ⟨_, y, .written hc hf, hy, .settled⟩

theorem evalAbandon_path (d : Device) (c : Ctx) : Path d (d.evalAbandon c) := by
  unfold Device.evalAbandon
  split
  · exact (undo_path _ _ _).trans (answer_path _ _ _)
  · exact answer_path _ _ _

theorem evalRenew_path (d : Device) (c : Ctx) : Path d (d.evalRenew c) := by
  unfold Device.evalRenew
  split
  · exact (modifyCtx_path ⟨rfl, rfl, rfl, id⟩).trans (answer_path _ _ _)
  · exact answer_path _ _ _

theorem evaluated_path {d : Device} (c : Cycle) (h : d.part.state = .running) : Path d (d.evaluate c) :=
  .single (.evaluated c (Or.inl h))

/-! ### Starts: the memory port is not ACTIVE -/

theorem startBringUp_inactive {p : MemPort} (h : p.state = .unconfigured ∨ p.state = .selfRefresh) :
    p.startBringUp.state ≠ .active := by
  unfold MemPort.startBringUp
  rcases h with h | h <;> simp [h]

theorem copyIfQuiet_part (d : Device) : d.copyIfQuiet.part = d.part := copyIfQuiet_frame d .part (by decide)
theorem copyIfQuiet_port (d : Device) : d.copyIfQuiet.port = d.port := copyIfQuiet_frame d .port (by decide)

theorem beginStart_port (d : Device) (k : StartKind) (st : Straps) : (d.beginStart k st).port = d.port.startBringUp := by
  cases k
  · rfl
  · rfl
  · exact copyIfQuiet_port _

theorem beginStart_phase (d : Device) (k : StartKind) (st : Straps) :
    (d.beginStart k st).part.phase = some .bringUp ∧ (d.beginStart k st).part.state = .starting := by
  cases k
  · exact ⟨rfl, rfl⟩
  · exact ⟨rfl, rfl⟩
  · exact ⟨congrArg (·.phase) (copyIfQuiet_part _), congrArg (·.state) (copyIfQuiet_part _)⟩

/-- A start over a memory port that is UNCONFIGURED or in SELF_REFRESH leaves nothing to settle. -/
theorem beginStart_inactive {d : Device} (k : StartKind) (st : Straps)
    (h : d.port.state = .unconfigured ∨ d.port.state = .selfRefresh) :
    (d.beginStart k st).port.state ≠ .active
      ∧ ((d.beginStart k st).part.state = .starting → (d.beginStart k st).part.phase ≠ some .undo) := by
  rw [beginStart_port, (beginStart_phase d k st).1]
  exact ⟨startBringUp_inactive h, fun _ => by simp⟩

theorem stoppedTied_port {d : Device} (h : d.stoppedTied) (hs : d.part.state = .stopped) :
    d.port.state = .unconfigured ∨ d.port.state = .selfRefresh := by
  obtain ⟨_, _, hblocks⟩ := h
  obtain ⟨_, _, _, _, _, hp, _⟩ := hblocks hs
  exact hp

theorem afterReset_inactive (p : PortState) : p.afterReset ≠ .active := by cases p <;> simp [PortState.afterReset]

theorem selfRefreshEntered_runs (c : Instr) (d : Device) (st : Straps) : Runs c d (d.selfRefreshEntered st) := by
  have hport : Worked d { d with port := { d.port with state := .selfRefresh } } := .setPort _
  have hpath : Path d (d.selfRefreshEntered st) :=
    (hport.path.trans (setPart_path _ (p := { d.part with state := .held }) (by simp) (by simp))).trans
      (restartIfFree_path _ _)
  refine ⟨d, _, .plain, hpath, .inactive fun _ => ?_⟩
  unfold Device.selfRefreshEntered Device.restartIfFree
  split
  · exact beginStart_inactive _ _ (Or.inr rfl)
  · exact ⟨by simp, by simp⟩

theorem releaseRst_runs {d : Device} (st : Straps) (hr : d.part.rst = true) :
    Runs (.rstReleased st) d (d.releaseRst st) := by
  refine ⟨_, _, .released hr, .refl, .inactive fun ht => ?_⟩
  have hs : d.part.state = .stopped := ht.1.mpr (Or.inl hr)
  have hp := stoppedTied_port ht hs
  unfold Device.releaseRst
  simp only
  split
  · exact beginStart_inactive _ _ hp
  · exact ⟨by rcases hp with hp | hp <;> simp [hp], by simp [hs]⟩

/-! ### All commands -/

/-- The effect of every command: a first change, changes of the kinds listed, and its end. -/
theorem exec_runs {c : Instr} {s t : State} (h : exec c s = .next t) : Runs c s.dev t.dev := by
  have device : ∀ {r : Host.Outcome Device Fault Refusal}, s.onDevice r = .next t → r = .next t.dev := fun hr => by
    obtain ⟨d, rfl, rfl⟩ := onDevice_eq_next.mp hr
    rfl
  have next : ∀ {d : Device}, s.onDevice (.next d) = .next t → t.dev = d := fun hr =>
    (Host.Outcome.next.inj (device hr)).symm
  have settled : ∀ {e : Device}, s.onDevice (.next e.settle) = .next t → Path s.dev e → Runs c s.dev t.dev := fun hr hp =>
    next hr ▸ .settled hp
  have mark : ∀ {k : MarkKind} {m : MarkCycle} {eval : Ctx → Device → Device}, s.takeMark k m eval = .next t →
      (∀ (x : Ctx) (d : Device), d.part.state = .running → Path d (eval x d)) → Runs c s.dev t.dev := fun hm he => by
    obtain ⟨x, _, rfl⟩ := takeMark_eq_next hm
    exact takeCycle_runs (he x)
  cases c with
  | hostRead c => exact next h ▸ takeCycle_runs fun x hx => evaluated_path (.read c _) hx
  | hostReadAccessComplete => exact readDone_runs (device h) fun _ _ _ => hostLineRead_path
  | hostWrite c =>
    change execHostWrite c s = _ at h
    unfold execHostWrite at h
    split at h
    · exact next h ▸ takeCycle_runs fun x hx => evaluated_path (.write c _) hx
    · exact absurd h (by simp)
  | openMark m => exact mark h fun x d hd => evaluated_path (.openMark x) hd
  | commitMark m => exact mark h fun x d hd => evaluated_path (.commitMark x) hd
  | abandonMark m => exact mark h fun x d _ => evalAbandon_path d x
  | renewMark m => exact mark h fun x d _ => evalRenew_path d x
  | queryMark m => exact mark h fun x d _ => answer_path _ _ _
  | markBadTag m =>
    change execMarkBadTag m s = _ at h
    unfold execMarkBadTag at h
    split at h
    · exact next h ▸ takeCycle_runs fun x _ => refuse_path _ _ _ _ _ _
    · exact absurd h (by simp)
  | waitLimitExpiry =>
    change execWaitLimitExpiry s = _ at h
    unfold execWaitLimitExpiry at h
    simp only at h
    split at h
    · exact settled h (waitExpired_path _ _)
    · next hm =>
      split at h
      · exact next h ▸ .alike (.single (.host (by simp) (by simp))) ((host_frame _ _).mono (by decide)) (by simp [hm])
      · exact absurd h (by simp)
    all_goals exact absurd h (by simp)
  | leaseExpiry c =>
    change execLeaseExpiry c s = _ at h
    unfold execLeaseExpiry at h
    split at h
    · exact settled h (leaseExpired_path _ _)
    · exact absurd h (by simp)
  | oldLineReadComplete =>
    refine readDone_runs (device h) fun x _ ws hx => ?_
    unfold Device.oldLineRead at hx
    split at hx
    · exact ⟨_, ((Worked.setEngine x).trans (requestAppend_worked _ _ _)).path, (Host.Outcome.next.inj hx).symm⟩
    · exact absurd hx (by simp)
  | appendWriteComplete =>
    refine writeDone_runs (by simp) (device h) fun x hx => ?_
    split at hx
    · exact ⟨_, appendWritten_path _ _, (Host.Outcome.next.inj hx).symm⟩
    · exact absurd hx (by simp)
  | dataWriteComplete =>
    refine writeDone_runs (by simp) (device h) fun x hx => ?_
    split at hx
    · exact ⟨_, dataWritten_path _ _, (Host.Outcome.next.inj hx).symm⟩
    · exact absurd hx (by simp)
  | rollbackRecordReadComplete =>
    refine readDone_runs (device h) fun x _ ws hx => ?_
    split at hx
    · obtain ⟨y, hy, he⟩ := walkRead_worked hx
      exact ⟨y, hy.path, he⟩
    · exact absurd hx (by simp)
  | restoreWriteComplete =>
    refine writeDone_runs (by simp) (device h) fun x hx => ?_
    split at hx
    · exact ⟨_, (restored_worked _ _).path, (Host.Outcome.next.inj hx).symm⟩
    · exact absurd hx (by simp)
  | headerReadComplete =>
    refine readDone_runs (device h) fun x _ ws hx => ?_
    obtain ⟨y, hy, he⟩ := headerLine_worked hx
    exact ⟨y, hy.path, he⟩
  | anchorWriteComplete =>
    refine writeDone_runs (by simp) (device h) fun x hx => ?_
    split at hx
    · exact ⟨_, anchorWritten_path _ _, (Host.Outcome.next.inj hx).symm⟩
    · exact absurd hx (by simp)
  | refreshTimerExpiry =>
    change execRefreshTimerExpiry s = _ at h
    unfold execRefreshTimerExpiry at h
    simp only at h
    split at h
    · exact settled h ((Worked.setPort s.dev).trans (refreshDue_worked _)).path
    · exact absurd h (by simp)
  | refreshComplete =>
    change execRefreshComplete s = _ at h
    unfold execRefreshComplete at h
    split at h
    · exact settled h ((refreshed_worked _).trans (closeBanks_worked _)).path
    · exact absurd h (by simp)
  | selfRefreshEntryComplete st =>
    change execSelfRefreshEntryComplete st s = _ at h
    unfold execSelfRefreshEntryComplete at h
    split at h
    · exact next h ▸ selfRefreshEntered_runs _ _ _
    · exact absurd h (by simp)
  | selfRefreshExitComplete =>
    change execSelfRefreshExitComplete s = _ at h
    unfold execSelfRefreshExitComplete at h
    split at h
    · exact settled h (bringUpReport_path _)
    · exact absurd h (by simp)
  | bringUpComplete =>
    change execBringUpComplete s = _ at h
    unfold execBringUpComplete at h
    split at h
    · exact settled h (bringUpReport_path _)
    · exact absurd h (by simp)
  | anchorReadComplete =>
    exact readDone_runs (device h) fun x _ ws hx => ⟨_, anchorRead_path x ws, (Host.Outcome.next.inj hx).symm⟩
  | scanLineReadComplete =>
    exact readDone_runs (device h) fun x l ws hx => ⟨_, scanLine_path x l ws, (Host.Outcome.next.inj hx).symm⟩
  | pfwarnAsserted => exact settled h (warn_path _)
  | pfwarnNegated st => exact settled h ((setPart_path _).trans (restartIfFree_path _ _))
  | rstAsserted =>
    change execRstAsserted s = _ at h
    unfold execRstAsserted at h
    simp only at h
    split at h
    · exact next h ▸ .same
    · next hr =>
      exact next h ▸ ⟨_, _, .reset (by simpa using hr), .refl,
        .inactive fun _ => ⟨afterReset_inactive _, fun hs => absurd hs (by simp [Device.stopAll])⟩⟩
  | rstReleased st =>
    have h := next h
    split at h
    · next hr => exact h ▸ releaseRst_runs st hr
    · exact h ▸ .same
  | powerOnComplete st =>
    change execPowerOnComplete st s = _ at h
    unfold execPowerOnComplete at h
    simp only at h
    split at h
    · exact absurd h (by simp)
    · next hp =>
      have hp : s.dev.part.powered = false := by simpa using hp
      have hport : s.dev.stoppedTied → _ := fun ht => stoppedTied_port ht (ht.1.mpr (Or.inr hp))
      have h := next h
      split at h
      · next hr =>
        refine h ▸ ⟨_, _, .poweredHeld hp hr, .refl, .inactive fun ht => ?_⟩
        have hs : s.dev.part.state = .stopped := ht.1.mpr (Or.inr hp)
        exact ⟨by rcases hport ht with k | k <;> simp [k], by simp [hs]⟩
      · next hr =>
        exact h ▸ ⟨_, _, .powered hp (by simpa using hr), .refl, .inactive fun ht => beginStart_inactive _ _ (hport ht)⟩
  | managementReadFrame f =>
    change execManagementReadFrame f s = _ at h
    unfold execManagementReadFrame at h
    split at h
    · rcases clockFrame_eq_next.mp (device h) with ⟨_, ht⟩ | ⟨_, hc, ht⟩
      · exact ht ▸ .same
      · rw [ht]
        split
        · exact .alike (endFrame_path _ _ _ _) ((endFrame_frame _ _ _ _).mono (by decide)) Iff.rfl
        · exact frameGoesOn_runs hc
    · exact absurd h (by simp)
  | pendingTableWrite f => exact frameOfRow_runs (device h) (by decide) nofun
  | activeTableWrite f => exact frameOfRow_runs (device h) (by decide) nofun
  | applyRequest f => exact frameOfRow_runs (device h) (by decide) fun _ => rfl
  | formatCommand f => exact frameOfRow_runs (device h) (by decide) nofun
  | holdCommand f => exact frameOfRow_runs (device h) (by decide) nofun
  | releaseCommand f st => exact frameOfRow_runs (device h) (by decide) nofun
  | alertCausesClear f => exact frameOfRow_runs (device h) (by decide) nofun
  | alertMaskWrite f => exact frameOfRow_runs (device h) (by decide) nofun
  | settingWrite f => exact frameOfRow_runs (device h) (by decide) nofun
  | powerLoss => exact next h ▸ ⟨_, _, .lost, .refl, .inactive fun _ => ⟨nofun, nofun⟩⟩
  | frameEndsBeforeCommandByte bits =>
    rcases clockFrame_eq_next.mp (device h) with ⟨_, ht⟩ | ⟨_, hc, ht⟩
    · exact ht ▸ .same
    · exact ht ▸ .alike (endFrame_path _ _ _ _) ((endFrame_frame _ _ _ _).mono (by decide)) Iff.rfl

end Sys2Proof.Machine
end

section
/-! Invariants of single blocks: the queue of commands, the DRAM, the settings, the region table, the bounds. -/

namespace Sys2Proof.Machine

/-! ### The queue of commands -/

theorem onDevice_pending {s t : State} {r : Host.Outcome Device Fault Refusal} (h : s.onDevice r = .next t) :
    t.pending = s.pending := by
  obtain ⟨d, _, rfl⟩ := onDevice_eq_next.mp h
  rfl

theorem takeMark_pending {s t : State} {k : MarkKind} {m : MarkCycle} {eval : Ctx → Device → Device}
    (h : s.takeMark k m eval = .next t) : t.pending = s.pending := by
  obtain ⟨c, _, rfl⟩ := takeMark_eq_next h
  rfl

/-- Where a command is carried out under a condition only, it is refused else. -/
theorem guarded_pending {s t : State} {p : Prop} [Decidable p] {r : Host.Outcome Device Fault Refusal} {x : Refusal}
    (h : (if p then s.onDevice r else .refused x) = .next t) : t.pending = s.pending := by
  split at h
  · exact onDevice_pending h
  · exact absurd h (by simp)

/-- Settles O3: every meaning works on the device alone. -/
theorem execKeepsQueue : Obligations.ExecKeepsQueue := by
  intro c s t h
  cases c with
  | hostWrite c => exact guarded_pending h
  | openMark m => exact takeMark_pending h
  | commitMark m => exact takeMark_pending h
  | abandonMark m => exact takeMark_pending h
  | renewMark m => exact takeMark_pending h
  | queryMark m => exact takeMark_pending h
  | markBadTag m => exact guarded_pending h
  | waitLimitExpiry =>
    change execWaitLimitExpiry s = _ at h
    unfold execWaitLimitExpiry at h
    simp only at h
    split at h
    · exact onDevice_pending h
    · split at h
      · exact onDevice_pending h
      · exact absurd h (by simp)
    all_goals exact absurd h (by simp)
  | leaseExpiry c => exact guarded_pending h
  | refreshTimerExpiry => exact guarded_pending h
  | refreshComplete => exact guarded_pending h
  | selfRefreshEntryComplete st => exact guarded_pending h
  | selfRefreshExitComplete => exact guarded_pending h
  | bringUpComplete => exact guarded_pending h
  | rstAsserted =>
    change execRstAsserted s = _ at h
    unfold execRstAsserted at h
    simp only at h
    split at h <;> exact onDevice_pending h
  | powerOnComplete st =>
    change execPowerOnComplete st s = _ at h
    unfold execPowerOnComplete at h
    simp only at h
    split at h
    · exact absurd h (by simp)
    · exact onDevice_pending h
  | managementReadFrame f => exact guarded_pending h
  | hostRead c => exact onDevice_pending (r := .next _) h
  | pfwarnAsserted => exact onDevice_pending (r := .next _) h
  | pfwarnNegated st => exact onDevice_pending (r := .next _) h
  | rstReleased st => exact onDevice_pending (r := .next _) h
  | powerLoss => exact onDevice_pending (r := .next _) h
  | _ => exact onDevice_pending h

/-! ### What every step keeps -/

/-- A step is the effect of a command, or the passing of time. -/
theorem step_cases {s t : State} (h : step s = .next t) :
    (s.pending = [] ∧ t.dev = s.dev.tick) ∨ ∃ c rest, s.pending = c :: rest ∧ Runs c s.dev t.dev := by
  unfold step at h
  split at h
  · next hp => exact Or.inl ⟨hp, congrArg State.dev (Host.Outcome.next.inj h).symm⟩
  · next c rest hp => exact Or.inr ⟨c, rest, hp, exec_runs (s := { s with pending := rest }) h⟩

/-- What the end of a command keeps with every change, the effect of a command keeps with its first change. -/
theorem Runs.keeps {P : Device → Prop} {c : Instr} {s t : Device} (h : Runs c s t)
    (hb : ∀ c d e, Begins c d e → P d → P e) (hc : ∀ d e, Change d e → P d → P e) (hs : P s) : P t := by
  obtain ⟨d, e, hbegin, hpath, hend⟩ := h
  have he := hpath.keeps hc (hb _ _ _ hbegin hs)
  cases hend with
  | settled => exact hc _ _ (.work (settle_worked e)) he
  | alike _ _ => exact he
  | inactive _ => exact he

/-- What time, every first change and every later change keep, every step keeps. -/
theorem keptByStep_of {Inv : State → Prop} {P : Device → Prop} (hi : ∀ s, Inv s ↔ P s.dev)
    (ht : ∀ d, P d → P d.tick) (hb : ∀ c d e, Begins c d e → P d → P e) (hc : ∀ d e, Change d e → P d → P e) :
    keptByStep Inv := by
  intro s t hs h
  rw [hi] at hs ⊢
  rcases step_cases h with ⟨_, htick⟩ | ⟨c, _, _, hrun⟩
  · rw [htick]
    exact ht _ hs
  · exact hrun.keeps hb hc hs

/-! ### First changes, block by block -/

theorem writeItems_frame {l : List Block} (st : Straps) {ws : List (Nat × Word)}
    (h : ∀ p ∈ ws, ∀ d : Device, unchangedBut l d (d.writeItem st p.1 p.2)) (d : Device) :
    unchangedBut l d (d.writeItems st ws) := by
  induction ws generalizing d with
  | nil => exact .refl _ _
  | cons p ps ih =>
    exact (h p List.mem_cons_self d).trans (ih (fun q hq => h q (List.mem_cons_of_mem _ hq)) _)

theorem writeItem_pending (d : Device) (st : Straps) {n : Nat} (v : Word) (h : 0x20 ≤ n ∧ n ≤ 0x2F) :
    d.writeItem st n v = d.writePending n v := if_pos h

theorem writeItem_setting (d : Device) (st : Straps) {n : Nat} (v : Word) (h : 0x50 ≤ n ∧ n ≤ 0x56) :
    d.writeItem st n v = d.writeSetting n v := by
  unfold Device.writeItem
  rw [if_neg (by omega), if_neg (by omega), if_pos h]

theorem writePending_frame (d : Device) (n : Nat) (v : Word) : unchangedBut [.regions] d (d.writePending n v) :=
  regions_frame _ _

theorem writeItems_pending_frame {ws : List (Nat × Word)} (h : ∀ p ∈ ws, 0x20 ≤ p.1 ∧ p.1 ≤ 0x2F) (d : Device)
    (st : Straps) : unchangedBut [.regions] d (d.writeItems st ws) :=
  writeItems_frame st (fun p hp x => writeItem_pending x st p.2 (h p hp) ▸ writePending_frame _ _ _) d

theorem writeItems_settings_frame {ws : List (Nat × Word)}
    (h : ∀ p ∈ ws, (0x50 ≤ p.1 ∧ p.1 ≤ 0x56) ∧ writeGood p.1 p.2 = true) (d : Device) (st : Straps) :
    unchangedBut [.mgmt] d (d.writeItems st ws) :=
  writeItems_frame st (fun p hp x => writeItem_setting x st p.2 (h p hp).1 ▸ mgmt_frame _ _) d

theorem takeApply_frame (d : Device) : unchangedBut [.regions] d d.takeApply := by
  unfold Device.takeApply
  split
  · exact applyCopy_frame _
  · exact regions_frame _ _

theorem cutAccess_dram (d : Device) : d.cutAccess.dram = d.dram ∨ ∃ u w, d.port.inFlight = some (.write u w)
    ∧ d.cutAccess.dram = d.dram.cutAvoiding d.drawn w (d.cutExcludes u w) := by
  unfold Device.cutAccess
  split
  · next u w hf => exact Or.inr ⟨u, w, hf, rfl⟩
  · exact Or.inl rfl

/-- A loss of power keeps the DRAM, cuts the access in flight as RST does, or leaves the DRAM without refresh (log 13). -/
theorem afterPowerLoss_dram (d : Device) : d.afterPowerLoss.dram = d.dram
    ∨ (∃ u w n bad, d.port.inFlight = some (.write u w) ∧ d.afterPowerLoss.dram = d.dram.cutAvoiding n w bad)
    ∨ ∃ n, d.afterPowerLoss.dram = { cells := [], lost := some n } := by
  unfold Device.afterPowerLoss
  split
  · exact Or.inl rfl
  · simp only
    split
    · rcases cutAccess_dram { d with drawn := d.drawn + 1 } with hsame | ⟨u, w, hf, hcut⟩
      · exact Or.inl hsame
      · exact Or.inr (Or.inl ⟨u, w, _, _, hf, hcut⟩)
    · exact Or.inr (Or.inr ⟨_, rfl⟩)

/-- RST touches every block but the region map, the ownership table, the queue and the journal controller. -/
theorem stopAll_frame (d : Device) :
    unchangedBut [.host, .contexts, .engine, .rollback, .port, .part, .mgmt, .dram, .drawn] d d.stopAll := by
  have h := (((cutAccess_frame d).comp (cutHost_frame _) (by decide) (by decide) :
    unchangedBut [.dram, .drawn, .contexts, .host] d _)).trans ((stopLeases_frame _).mono (by decide))
  refine (h.mono (by decide)).trans ?_
  intro b hb; cases b <;> first | rfl | exact absurd (by decide) hb

theorem stopAll_dram (d : Device) : d.stopAll.dram = d.cutAccess.dram := cutHost_frame d.cutAccess .dram (by decide)

theorem releaseRst_frame (d : Device) (st : Straps) :
    unchangedBut [.host, .regions, .contexts, .own, .queue, .engine, .journal, .rollback, .port, .part, .mgmt] d
      (d.releaseRst st) := by
  unfold Device.releaseRst
  simp only
  split
  · exact (part_frame d _).comp (beginStart_frame _ _ _) (by decide) (by decide)
  · exact (part_frame d _).mono (by decide)

/-! ### The DRAM -/

theorem Change.dram {d e : Device} (h : Change d e) : e.dram = d.dram := by
  cases h with
  | work h => exact h.dram
  | contexts hf _ => exact hf .dram (by decide)
  | evaluated c _ => exact evaluate_frame d c .dram (by decide)
  | headLeaves => exact headLeaves_frame d .dram (by decide)
  | restarted _ => exact beginStart_frame _ _ _ .dram (by decide)
  | _ => rfl

theorem Path.dram {d e : Device} (h : Path d e) : e.dram = d.dram := by
  induction h with
  | refl => rfl
  | tail _ hc ih => exact hc.dram.trans ih

/-- The DRAM changes at a command's first change alone: by the completed write, by RST, which cuts the access in flight,
or by a loss of power. -/
theorem Begins.dram_cases {c : Instr} {d e : Device} (h : Begins c d e) :
    e.dram = d.dram
    ∨ (∃ u w, c ∈ [Instr.appendWriteComplete, .dataWriteComplete, .restoreWriteComplete, .anchorWriteComplete]
        ∧ d.port.inFlight = some (.write u w) ∧ e.dram = d.dram.writeLine w)
    ∨ (∃ u w n bad, (c = .rstAsserted ∨ c = .powerLoss) ∧ d.port.inFlight = some (.write u w)
        ∧ e.dram = d.dram.cutAvoiding n w bad)
    ∨ (c = .powerLoss ∧ ∃ n, e.dram = { cells := [], lost := some n }) := by
  cases h with
  | plain => exact Or.inl rfl
  | written hc hf => exact Or.inr (Or.inl ⟨_, _, hc, hf, rfl⟩)
  | pendingWritten _ hw => exact Or.inl (writeItems_pending_frame hw d _ .dram (by decide))
  | applied _ => exact Or.inl (takeApply_frame d .dram (by decide))
  | settingsWritten hw => exact Or.inl (writeItems_settings_frame hw d _ .dram (by decide))
  | reset _ =>
    rw [stopAll_dram]
    rcases cutAccess_dram { d with part := { d.part with rst := true } } with hsame | ⟨u, w, hf, hcut⟩
    · exact Or.inl hsame
    · exact Or.inr (Or.inr (Or.inl ⟨u, w, _, _, Or.inl rfl, hf, hcut⟩))
  | released _ => exact Or.inl (releaseRst_frame d _ .dram (by decide))
  | powered _ _ => exact Or.inl (beginStart_frame _ _ _ .dram (by decide))
  | poweredHeld _ _ => exact Or.inl rfl
  | lost =>
    rcases afterPowerLoss_dram d with hsame | ⟨u, w, n, bad, hf, hcut⟩ | ⟨n, hlost⟩
    · exact Or.inl hsame
    · exact Or.inr (Or.inr (Or.inl ⟨u, w, n, bad, Or.inr rfl, hf, hcut⟩))
    · exact Or.inr (Or.inr (Or.inr ⟨rfl, n, hlost⟩))

theorem Begins.dram_wf {c : Instr} {d e : Device} (h : Begins c d e) (hw : d.dram.wf = true) : e.dram.wf = true := by
  rcases h.dram_cases with hs | ⟨u, w, _, _, hl⟩ | ⟨u, w, n, bad, _, _, hcut⟩ | ⟨_, n, hl⟩
  · rwa [hs]
  · rw [hl]
    exact Memory.writeLine_wf _ _ hw
  · rw [hcut]
    exact Memory.cutAvoiding_wf _ _ _ _ hw
  · rw [hl]
    rfl

/-- Settles O6: the canonical form is kept by line writes, cut writes, and the DRAM without refresh. -/
theorem stepKeepsMemoryForm : Obligations.StepKeepsMemoryForm :=
  keptByStep_of (P := fun d => d.dram.wf = true) (fun _ => Iff.rfl) (fun _ h => h) (fun _ _ _ hb h => hb.dram_wf h)
    (fun _ _ hc h => by rwa [hc.dram])

/-- A command's DRAM is that of its first change. -/
theorem Runs.dram {c : Instr} {s t : Device} (h : Runs c s t) : ∃ d, Begins c s d ∧ t.dram = d.dram := by
  obtain ⟨d, e, hb, hp, hend⟩ := h
  refine ⟨d, hb, ?_⟩
  cases hend with
  | settled => exact (settle_worked e).dram.trans hp.dram
  | alike _ _ => exact hp.dram
  | inactive _ => exact hp.dram

/-- Settles O13: the first changes that touch the DRAM, and where. -/
theorem memoryChangesOnlyByWrites : Obligations.MemoryChangesOnlyByWrites := by
  intro c s t h
  obtain ⟨d, hb, hd⟩ := (exec_runs h).dram
  rw [hd]
  constructor
  · intro hc
    simp only [List.mem_cons, List.not_mem_nil, or_false, not_or] at hc
    obtain ⟨ha, hw, hr, hn, hrst, hl⟩ := hc
    rcases hb.dram_cases with hs | ⟨_, _, hm, _, _⟩ | ⟨_, _, _, _, hcut, _⟩ | ⟨hlost, _⟩
    · exact hs
    · simp [ha, hw, hr, hn] at hm
    · exact absurd hcut (by simp [hrst, hl])
    · exact absurd hlost hl
  · intro hc a ha
    have outside : ∀ {m : Memory} {w : LineWrite}, m.read a ≠ s.dev.dram.read a →
        ((a < w.line ∨ w.line + 32 ≤ a) → m.read a = s.dev.dram.read a) → w.line ≤ a ∧ a < w.line + 32 := by
      intro m w hne hout
      by_contra hn
      exact hne (hout (by omega))
    rcases hb.dram_cases with hs | ⟨u, w, _, hf, hl⟩ | ⟨u, w, n, bad, _, hf, hcut⟩ | ⟨hlost, _⟩
    · rw [hs] at ha
      exact absurd rfl ha
    · rw [hl] at ha
      exact ⟨u, w, hf, outside ha (Memory.read_writeLine_outside _ w a)⟩
    · rw [hcut] at ha
      exact ⟨u, w, hf, outside ha (Memory.read_cutAvoiding_outside _ n w bad a)⟩
    · exact absurd hlost hc

/-! ### What an entry's placing does -/

/-- An entry placed is seen by the engine: it takes it up, considers it for its group, or leaves it (R86, R91). -/
theorem engineSees_worked (d : Device) : Worked d d.engineSees := by
  unfold Device.engineSees
  split
  · exact engineNext_worked _
  · exact .setEngine d
  · exact .refl _

theorem countPlaced_queue (d : Device) (e : QEntry) : (d.countPlaced e).queue = d.queue :=
  countPlaced_frame d e .queue (by decide)

theorem countLeft_queue (d : Device) (e : QEntry) : (d.countLeft e).queue = d.queue :=
  countLeft_frame d e .queue (by decide)

/-- The entry's place and count, before the engine sees it. -/
theorem placeEntry_worked (d : Device) (e : QEntry) :
    Worked (Device.countPlaced { d with queue := d.queue ++ [e] } e) (d.placeEntry e) := engineSees_worked _

theorem counted_frame (d : Device) (e : QEntry) :
    unchangedBut [.queue, .contexts] d (Device.countPlaced { d with queue := d.queue ++ [e] } e) :=
  (queue_frame d _).comp (countPlaced_frame _ _) (by decide) (by decide)

@[simp] theorem placeEntry_queue (d : Device) (e : QEntry) : (d.placeEntry e).queue = d.queue ++ [e] :=
  (placeEntry_worked d e).queue.trans (countPlaced_queue _ _)

@[simp] theorem headLeaves_queue (d : Device) : d.headLeaves.queue = d.queue.tail := by
  unfold Device.headLeaves
  split
  · next h => simp [h]
  · next h => rw [countLeft_queue, h]; rfl

/-! ### The settings (R195) -/

/-- The settings stay in their ranges. -/
def Settings.inRange (x : Settings) : Prop :=
  1 ≤ x.waitLimit ∧ x.waitLimit ≤ 1023 ∧ 1 ≤ x.leaseLength ∧ x.leaseLength ≤ 65535 ∧ x.anchorDefer ≤ 6
    ∧ 1 ≤ x.lowWater ∧ x.lowWater ≤ 15 ∧ 4 ≤ x.refreshPeriod ∧ x.refreshPeriod ≤ 31

theorem Settings.defaults_inRange : Settings.defaults.inRange := by
  simp [Settings.inRange, Settings.defaults]

/-- An item that passes the item test keeps the settings in their ranges. -/
theorem Settings.write_inRange {x : Settings} {n : Nat} {v : Word} (h : x.inRange) (hn : 0x50 ≤ n ∧ n ≤ 0x56)
    (hv : writeGood n v = true) : (x.write (n - 0x50) v.toNat).inRange := by
  obtain ⟨h1, h2, h3, h4, h5, h6, h7, h8, h9⟩ := h
  have hin : (settingRange (n - 0x50)).1 ≤ v.toNat ∧ v.toNat ≤ (settingRange (n - 0x50)).2 := by
    unfold writeGood at hv
    rw [if_neg (by omega), if_neg (by omega), if_pos hn] at hv
    simpa using hv
  obtain ⟨k, rfl⟩ : ∃ k, n = 0x50 + k := ⟨n - 0x50, by omega⟩
  have hk : k ≤ 6 := by omega
  rw [Nat.add_sub_cancel_left] at hin ⊢
  interval_cases k <;> simp only [settingRange] at hin <;> simp only [Settings.inRange, Settings.write] <;> omega

theorem writeItems_inRange (st : Straps) {ws : List (Nat × Word)}
    (h : ∀ p ∈ ws, (0x50 ≤ p.1 ∧ p.1 ≤ 0x56) ∧ writeGood p.1 p.2 = true) (d : Device)
    (hd : d.mgmt.settings.inRange) : (d.writeItems st ws).mgmt.settings.inRange := by
  induction ws generalizing d with
  | nil => exact hd
  | cons p ps ih =>
    have hp := h p List.mem_cons_self
    refine ih (fun q hq => h q (List.mem_cons_of_mem _ hq)) (d.writeItem st p.1 p.2) ?_
    rw [writeItem_setting d st p.2 hp.1]
    exact Settings.write_inRange hd hp.1 hp.2

theorem Admission.settings {d e : Device} (h : Admission d e) : e.mgmt.settings = d.mgmt.settings := by
  cases h with
  | work h => exact h.settings
  | contexts hf _ => rw [hf .mgmt (by decide)]
  | placed _ => exact (placeEntry_worked _ _).settings.trans (congrArg _ (counted_frame d _ .mgmt (by decide)))
  | logged _ _ => rw [logWords_frame _ _ _ _ _ .mgmt (by decide)]
  | _ => rfl

theorem beginStart_restart_mgmt (d : Device) (st : Straps) : (d.beginStart .restart st).mgmt = d.mgmt :=
  copyIfQuiet_frame _ .mgmt (by decide)

theorem Change.settings {d e : Device} (h : Change d e) : e.mgmt.settings = d.mgmt.settings := by
  cases h with
  | work h => exact h.settings
  | contexts hf _ => rw [hf .mgmt (by decide)]
  | evaluated c _ =>
    exact (evaluate_admits d c).keeps (P := fun x => x.mgmt.settings = d.mgmt.settings)
      (fun _ _ ha hx => ha.settings.trans hx) rfl
  | headLeaves => rw [headLeaves_frame d .mgmt (by decide)]
  | frame hs _ => exact hs
  | restarted _ => rw [beginStart_restart_mgmt]
  | _ => rfl

theorem beginStart_mgmt_of_ne {d : Device} {k : StartKind} (st : Straps) (h : k ≠ .restart) :
    (d.beginStart k st).mgmt = Management.defaults .idle := by
  cases k
  · rfl
  · rfl
  · exact absurd rfl h

theorem stoppedStartKind_ne (d : Device) : d.stoppedStartKind ≠ .restart := by
  unfold Device.stoppedStartKind
  split <;> decide

theorem Begins.settings_inRange {c : Instr} {d e : Device} (h : Begins c d e) (hd : d.mgmt.settings.inRange) :
    e.mgmt.settings.inRange := by
  cases h with
  | plain => exact hd
  | written _ _ => exact hd
  | pendingWritten _ hw => rwa [writeItems_pending_frame hw d _ .mgmt (by decide)]
  | applied _ => rwa [takeApply_frame d .mgmt (by decide)]
  | settingsWritten hw => exact writeItems_inRange _ hw d hd
  | reset _ =>
    have hm : ∀ x : Device, x.stopAll.mgmt.settings = x.mgmt.settings := fun x =>
      congrArg (·.settings) ((((cutAccess_frame x).comp (cutHost_frame _) (by decide) (by decide) :
        unchangedBut [.dram, .drawn, .contexts, .host] x _)) .mgmt (by decide))
    rw [hm]
    exact hd
  | released _ =>
    unfold Device.releaseRst
    simp only
    split
    · rw [beginStart_mgmt_of_ne _ (stoppedStartKind_ne _)]
      exact Settings.defaults_inRange
    · exact hd
  | powered _ _ => exact Settings.defaults_inRange
  | poweredHeld _ _ => exact hd
  | lost => exact Settings.defaults_inRange

/-- Settles O9: a setting is written by an item in its range alone, and a start sets the defaults. -/
theorem stepKeepsSettingsInRange : Obligations.StepKeepsSettingsInRange :=
  keptByStep_of (P := fun d => d.mgmt.settings.inRange) (fun _ => Iff.rfl) (fun _ h => h)
    (fun _ _ _ hb h => hb.settings_inRange h) (fun _ _ hc h => by rwa [hc.settings])

/-! ### The region table (R1, R8) -/

/-- The used entries of a table name a mode and a view. -/
def tableNamed (t : Vector RegionEntry 8) : Prop := ∀ i : Fin 8, (t[i]).used = true → (t[i]).named = true

/-- So do the active ones, and the pending ones while an APPLY waits. -/
def RegionMap.allNamed (r : RegionMap) : Prop :=
  tableNamed r.active ∧ (r.applyWaiting = true → tableNamed r.pendingTable)

theorem RegionMap.cleared_allNamed : RegionMap.cleared.allNamed :=
  ⟨fun i hu => by simp [RegionMap.cleared, RegionEntry.used, RegionEntry.unused] at hu, by simp [RegionMap.cleared]⟩

/-- The copy takes over entries that are named. -/
theorem applyCopy_allNamed {d : Device} (h : tableNamed d.regions.pendingTable) : d.applyCopy.regions.allNamed :=
  ⟨h, by simp [Device.applyCopy]⟩

theorem copyIfQuiet_allNamed {d : Device} (h : d.regions.allNamed) : d.copyIfQuiet.regions.allNamed := by
  unfold Device.copyIfQuiet
  split
  · next hc => exact applyCopy_allNamed (h.2 hc.1)
  · exact h

/-- A pending table that APPLY finds valid names its entries (R8). -/
theorem tableNamed_of_pendingValid {d : Device} (h : d.pendingValid = true) : tableNamed d.regions.pendingTable := by
  intro i hu
  have hall : ∀ e ∈ d.regions.pendingTable.toList, e.valid d.part.straps = true :=
    List.all_eq_true.mp (Bool.and_eq_true_iff.mp h).1
  have hi := hall _ (show d.regions.pendingTable[i] ∈ d.regions.pendingTable.toList by simp)
  unfold RegionEntry.valid at hi
  rw [hu] at hi
  simp only [Bool.not_true, Bool.false_or, Bool.and_eq_true] at hi
  exact hi.1.1.1

theorem takeApply_allNamed {d : Device} (h : d.pendingValid = true) (hd : d.regions.allNamed) :
    d.takeApply.regions.allNamed := by
  have hp := tableNamed_of_pendingValid h
  unfold Device.takeApply
  split
  · exact applyCopy_allNamed hp
  · exact ⟨hd.1, fun _ => hp⟩

/-- Items of the pending table leave the active table and the flag as they are. -/
theorem writeItems_pending_active {ws : List (Nat × Word)} (h : ∀ p ∈ ws, 0x20 ≤ p.1 ∧ p.1 ≤ 0x2F) (d : Device)
    (st : Straps) : (d.writeItems st ws).regions
      = { d.regions with pendingTable := (d.writeItems st ws).regions.pendingTable } := by
  induction ws generalizing d with
  | nil => rfl
  | cons p ps ih =>
    have hp := ih (fun q hq => h q (List.mem_cons_of_mem _ hq)) (d.writeItem st p.1 p.2)
    refine hp.trans ?_
    rw [writeItem_pending d st p.2 (h p List.mem_cons_self)]
    exact congrArg (fun t => ({ d.regions with pendingTable := t } : RegionMap))
      (congrArg (fun x : Device => (x.writeItems st ps).regions.pendingTable)
        (writeItem_pending d st p.2 (h p List.mem_cons_self)).symm)

theorem beginStart_regions_of_ne {d : Device} {k : StartKind} (st : Straps) (h : k ≠ .restart) :
    (d.beginStart k st).regions = RegionMap.cleared := by
  cases k
  · rfl
  · rfl
  · exact absurd rfl h

theorem Change.allNamed {d e : Device} (h : Change d e) (hd : d.regions.allNamed) : e.regions.allNamed := by
  cases h with
  | work h => rwa [h.regions]
  | contexts hf _ => rwa [hf .regions (by decide)]
  | evaluated c _ => rwa [evaluate_frame d c .regions (by decide)]
  | headLeaves => rwa [headLeaves_frame d .regions (by decide)]
  | copied ha => exact applyCopy_allNamed (hd.2 ha)
  | restarted _ => exact copyIfQuiet_allNamed (d := d.startClear _ _) hd
  | _ => exact hd

theorem Begins.allNamed {c : Instr} {d e : Device} (h : Begins c d e) (hd : d.regions.allNamed) :
    e.regions.allNamed := by
  cases h with
  | plain => exact hd
  | written _ _ => exact hd
  | pendingWritten ha hw =>
    rw [writeItems_pending_active hw]
    exact ⟨hd.1, fun hn => absurd (ha.symm.trans hn) (by simp)⟩
  | applied hv => exact takeApply_allNamed hv hd
  | settingsWritten hw => rwa [writeItems_settings_frame hw d _ .regions (by decide)]
  | reset _ =>
    rw [stopAll_frame _ .regions (by decide)]
    exact hd
  | released _ =>
    unfold Device.releaseRst
    simp only
    split
    · rw [beginStart_regions_of_ne _ (stoppedStartKind_ne _)]
      exact RegionMap.cleared_allNamed
    · exact hd
  | powered _ _ => exact RegionMap.cleared_allNamed
  | poweredHeld _ _ => exact hd
  | lost => exact RegionMap.cleared_allNamed

/-- Settles O12: the active table takes over only entries that APPLY has validated. -/
theorem stepKeepsRegionsNamed : Obligations.StepKeepsRegionsNamed :=
  keptByStep_of (P := fun d => d.regions.allNamed) (fun _ => Iff.rfl) (fun _ h => h) (fun _ _ _ hb h => hb.allNamed h)
    (fun _ _ hc h => hc.allNamed h)

/-! ### Capacities and caps -/

/-- The capacities and caps of the tables and counters, and one owner a line. -/
structure Bounded (d : Device) : Prop where
  queue : d.queue.length ≤ 8
  own : d.own.length ≤ 128
  owed : d.port.owed ≤ 5
  debt : d.journal.debt ≤ 255
  lines : (d.own.map (·.line)).Nodup

theorem boundsInv_iff (s : State) : BoundsInv s ↔ Bounded s.dev :=
  ⟨fun ⟨h1, h2, h3, h4, h5⟩ => ⟨h1, h2, h3, h4, h5⟩, fun ⟨h1, h2, h3, h4, h5⟩ => ⟨h1, h2, h3, h4, h5⟩⟩

/-- The bounds speak of the queue, the ownership table, the memory port and the journal controller alone. -/
theorem Bounded.of_frame {d e : Device} {l : List Block} (h : Bounded d) (hf : unchangedBut l d e)
    (hl : Block.queue ∉ l ∧ Block.own ∉ l ∧ Block.port ∉ l ∧ Block.journal ∉ l := by decide) : Bounded e := by
  obtain ⟨hq, ho, hp, hj⟩ := hl
  obtain ⟨h1, h2, h3, h4, h5⟩ := h
  have eq := hf .queue hq
  have eo := hf .own ho
  have ep := hf .port hp
  have ej := hf .journal hj
  simp only [sameBlock] at eq eo ep ej
  exact ⟨eq ▸ h1, eo ▸ h2, ep ▸ h3, ej ▸ h4, eo ▸ h5⟩

theorem Worked.bounded {d e : Device} (h : Worked d e) (hd : Bounded d) : Bounded e where
  queue := h.queue ▸ hd.queue
  own := h.own ▸ hd.own
  owed := by have := h.owed; have := hd.owed; omega
  debt := by have := h.debt; have := hd.debt; omega
  lines := h.own ▸ hd.lines

theorem withPending_line (e : OwnEntry) (m : WordSet) : (e.withPending m).line = e.line := rfl

/-- Entries mapped with their lines kept. -/
theorem map_line_of_kept {l : List OwnEntry} {f : OwnEntry → OwnEntry} (h : ∀ e, (f e).line = e.line) :
    (l.map f).map (·.line) = l.map (·.line) := by
  rw [List.map_map]
  exact List.map_congr_left fun e _ => h e

theorem setLocators_lines (d : Device) (g : Group) (p : Nat) :
    (d.setLocators g p).own.map (·.line) = d.own.map (·.line) :=
  map_line_of_kept fun e => by split <;> rfl

/-- What logging words makes of the ownership table (R72, R73). -/
theorem logWords_own (d : Device) (line : Nat) (c : Ctx) (i : Word) (m : WordSet) :
    (d.ownerOf line = none ∧ (d.logWords line c i m).own = d.own
        ++ [OwnEntry.withPending { line := line, ctx := c, inst := i, words := Vector.replicate 8 none } m])
    ∨ (d.ownerOf line ≠ none
        ∧ (d.logWords line c i m).own = d.own.map fun e => if e.line = line then e.withPending m else e) := by
  unfold Device.logWords
  cases h : d.ownerOf line with
  | none => exact Or.inl ⟨rfl, rfl⟩
  | some e => exact Or.inr ⟨by simp, rfl⟩

theorem logWords_bounded {d : Device} {line : Nat} {c : Ctx} {i : Word} {m : WordSet} (hd : Bounded d)
    (ho : d.ownerOf line = none → d.own.length < 128) : Bounded (d.logWords line c i m) := by
  have hf := logWords_frame d line c i m
  have hown : (d.logWords line c i m).own.length ≤ 128 ∧ ((d.logWords line c i m).own.map (·.line)).Nodup := by
    rcases logWords_own d line c i m with ⟨hn, he⟩ | ⟨_, he⟩
    · have hfresh := (ownerOf_eq_none d line).mp hn
      rw [he]
      refine ⟨by simpa using ho hn, ?_⟩
      rw [List.map_append, List.map_singleton, withPending_line]
      exact hd.lines.append (List.nodup_singleton _) (by simpa using hfresh)
    · rw [he, map_line_of_kept fun e => by split <;> rfl]
      exact ⟨by simpa using hd.own, hd.lines⟩
  have hq := hf .queue (by decide)
  have hp := hf .port (by decide)
  have hj := hf .journal (by decide)
  simp only [sameBlock] at hq hp hj
  exact ⟨hq ▸ hd.queue, hown.1, hp ▸ hd.owed, hj ▸ hd.debt, hown.2⟩

theorem Admission.bounded {d e : Device} (h : Admission d e) (hd : Bounded d) : Bounded e := by
  cases h with
  | work h => exact h.bounded hd
  | contexts hf _ => exact hd.of_frame hf
  | host _ => exact hd.of_frame (host_frame _ _)
  | @placed x hq =>
    have hroom : Bounded { d with queue := d.queue ++ [x] } :=
      ⟨by simpa using hq, hd.own, hd.owed, hd.debt, hd.lines⟩
    exact (placeEntry_worked _ _).bounded (hroom.of_frame (countPlaced_frame _ _))
  | logged _ ho => exact logWords_bounded hd ho
  | opened _ => exact hd.of_frame (modifyCtx_frame _ _ _)

theorem finish_own (d : Device) (c : Ctx) (o : FinishOutcome) : (d.finish c o).own = d.released c := rfl

theorem startClear_bounded {d : Device} {k : StartKind} {st : Straps} (hd : Bounded d) : Bounded (d.startClear k st) where
  queue := Nat.zero_le _
  own := Nat.zero_le _
  owed := by
    have howed : (d.startClear k st).port.owed = d.port.startBringUp.owed := rfl
    have := hd.owed
    rw [howed]
    unfold MemPort.startBringUp
    split <;> simp only <;> omega
  debt := Nat.zero_le _
  lines := List.nodup_nil

theorem beginStart_bounded {d : Device} {k : StartKind} {st : Straps} (hd : Bounded d) : Bounded (d.beginStart k st) := by
  have h := startClear_bounded (k := k) (st := st) hd
  cases k
  · exact ⟨h.queue, h.own, h.owed, h.debt, h.lines⟩
  · exact ⟨h.queue, h.own, h.owed, h.debt, h.lines⟩
  · exact h.of_frame (copyIfQuiet_frame _)

theorem Change.bounded {d e : Device} (h : Change d e) (hd : Bounded d) : Bounded e := by
  cases h with
  | work h => exact h.bounded hd
  | contexts hf _ => exact hd.of_frame hf
  | host _ _ => exact hd.of_frame (host_frame _ _)
  | evaluated c _ => exact (evaluate_admits d c).keeps (fun _ _ ha hx => ha.bounded hx) hd
  | headLeaves =>
    have htail : Bounded { d with queue := d.queue.tail } :=
      ⟨by have := hd.queue; simp only [List.length_tail]; omega, hd.own, hd.owed, hd.debt, hd.lines⟩
    unfold Device.headLeaves
    split
    · exact hd
    · next x rest hq =>
      rw [hq] at htail
      exact htail.of_frame (countLeft_frame _ _)
  | @finished c o =>
    have hsub : (d.released c).Sublist d.own := List.filter_sublist
    exact ⟨hd.queue, hsub.length_le.trans hd.own, hd.owed, hd.debt, (hsub.map _).nodup hd.lines⟩
  | @located g p =>
    exact ⟨hd.queue, by simpa [Device.setLocators] using hd.own, hd.owed, hd.debt,
      by rw [setLocators_lines]; exact hd.lines⟩
  | scanned _ => exact ⟨hd.queue, hd.own, hd.owed, hd.debt, hd.lines⟩
  | part _ _ _ _ => exact hd.of_frame (part_frame _ _)
  | copied _ => exact hd.of_frame (applyCopy_frame _)
  | drew => exact ⟨hd.queue, hd.own, hd.owed, hd.debt, hd.lines⟩
  | frame _ _ => exact hd.of_frame (mgmt_frame _ _)
  | restarted _ => exact beginStart_bounded hd

theorem Begins.bounded {c : Instr} {d e : Device} (h : Begins c d e) (hd : Bounded d) : Bounded e := by
  cases h with
  | plain => exact hd
  | written _ _ => exact ⟨hd.queue, hd.own, hd.owed, hd.debt, hd.lines⟩
  | pendingWritten _ hw => exact hd.of_frame (writeItems_pending_frame hw d _)
  | applied _ => exact hd.of_frame (takeApply_frame d)
  | settingsWritten hw => exact hd.of_frame (writeItems_settings_frame hw d _)
  | reset _ =>
    have hf := stopAll_frame { d with part := { d.part with rst := true } }
    have hq := hf .queue (by decide)
    have ho := hf .own (by decide)
    have hj := hf .journal (by decide)
    have hp : (Device.stopAll { d with part := { d.part with rst := true } }).port.owed = d.port.owed := by
      have hcut := ((cutAccess_frame { d with part := { d.part with rst := true } }).comp (cutHost_frame _)
        (by decide) (by decide) : unchangedBut [.dram, .drawn, .contexts, .host] _ _) .port (by decide)
      exact congrArg (·.owed) hcut
    simp only [sameBlock] at hq ho hj
    exact ⟨by rw [hq]; exact hd.queue, by rw [ho]; exact hd.own, by rw [hp]; exact hd.owed,
      by rw [hj]; exact hd.debt, by rw [ho]; exact hd.lines⟩
  | released _ =>
    unfold Device.releaseRst
    simp only
    split
    · exact beginStart_bounded (hd.of_frame (part_frame _ _))
    · exact hd.of_frame (part_frame _ _)
  | powered _ _ => exact beginStart_bounded (hd.of_frame (part_frame _ _))
  | poweredHeld _ _ => exact hd.of_frame (part_frame _ _)
  | lost => exact ⟨Nat.zero_le _, Nat.zero_le _, Nat.zero_le _, Nat.zero_le _, List.nodup_nil⟩

/-- Settles O7: entries are placed where there is room, one for a line without owner, and the counters stop at their
caps. -/
theorem stepKeepsBounds : Obligations.StepKeepsBounds :=
  keptByStep_of boundsInv_iff (fun _ h => ⟨h.queue, h.own, h.owed, h.debt, h.lines⟩) (fun _ _ _ hb h => hb.bounded h)
    (fun _ _ hc h => hc.bounded h)

end Sys2Proof.Machine
end

section
/-! The queued-entry and owned-line counts (R40, R41), and the current instance of every ownership entry (R66). -/

namespace Sys2Proof.Machine

/-- The counts agree with the queue and the ownership table, every ownership entry belongs to the current instance of a
context in use, and in STARTING nothing is queued, owned or waiting. -/
structure Counted (d : Device) : Prop where
  queued : ∀ c, (d.ctx c).queued = d.queue.countP fun e => decide (e.ctx? = some c)
  noWait : d.part.state = .starting → d.queue = [] ∧ ∀ w, d.host.mode ≠ .waiting w
  owned : ∀ c, (d.ctx c).owned = d.own.countP fun e => decide (e.ctx = c)
  current : ∀ e ∈ d.own, (d.ctx e.ctx).state ≠ .free ∧ e.inst = (d.ctx e.ctx).inst
  unowned : d.part.state = .starting → d.own = []

theorem counted_iff (s : State) : (QueuedInv s ∧ OwnershipInv s) ↔ Counted s.dev :=
  ⟨fun ⟨⟨h1, h2⟩, h3, h4, h5⟩ => ⟨h1, h2, h3, h4, h5⟩, fun ⟨h1, h2, h3, h4, h5⟩ => ⟨⟨h1, h2⟩, h3, h4, h5⟩⟩

/-- Where queue and ownership table stand and every context is kept, the counts still agree. -/
theorem Counted.of_kept {d e : Device} (h : Counted d) (hq : e.queue = d.queue) (ho : e.own = d.own)
    (hk : ∀ c, ContextKept (d.ctx c) (e.ctx c)) (hs : e.part.state = .starting → d.part.state = .starting)
    (hw : e.part.state = .starting → ∀ w, e.host.mode = .waiting w → ∃ w', d.host.mode = .waiting w') : Counted e where
  queued c := by rw [(hk c).queued, hq]; exact h.queued c
  noWait k := ⟨hq ▸ (h.noWait (hs k)).1, fun w hm => by
    obtain ⟨w', hw'⟩ := hw k w hm
    exact (h.noWait (hs k)).2 w' hw'⟩
  owned c := by rw [(hk c).owned, ho]; exact h.owned c
  current x hx := by
    obtain ⟨h1, h2⟩ := h.current x (ho ▸ hx)
    exact ⟨(hk x.ctx).used h1, (hk x.ctx).inst ▸ h2⟩
  unowned k := ho ▸ h.unowned (hs k)

/-- The counts speak of the host port, the contexts, the ownership table, the queue and the part state alone. -/
theorem Counted.of_frame {d e : Device} {l : List Block} (h : Counted d) (hf : unchangedBut l d e)
    (hl : Block.host ∉ l ∧ Block.contexts ∉ l ∧ Block.own ∉ l ∧ Block.queue ∉ l ∧ Block.part ∉ l := by decide) :
    Counted e := by
  obtain ⟨hh, hc, ho, hq, hp⟩ := hl
  have ec := hf .contexts hc
  have ep : e.part = d.part := hf .part hp
  have eh : e.host = d.host := hf .host hh
  refine h.of_kept (hf .queue hq) (hf .own ho) (fun c => ?_) (by rw [ep]; exact id) (fun _ w hw => ⟨w, eh ▸ hw⟩)
  rw [Device.ctx_congr ec]
  exact .refl _

theorem Worked.counted {d e : Device} (h : Worked d e) (hd : Counted d) : Counted e := hd.of_frame h.frame

/-- A change of the contexts that keeps each. -/
theorem Counted.of_contexts {d e : Device} (h : Counted d) (hf : unchangedBut [.contexts] d e)
    (hk : ∀ c, ContextKept (d.ctx c) (e.ctx c)) : Counted e := by
  have ep : e.part = d.part := hf .part (by decide)
  have eh : e.host = d.host := hf .host (by decide)
  exact h.of_kept (hf .queue (by decide)) (hf .own (by decide)) hk (by rw [ep]; exact id) (fun _ w hw => ⟨w, eh ▸ hw⟩)

/-! ### Entries come and go -/

theorem ctx_setQueue (d : Device) (q : List QEntry) (c : Ctx) : Device.ctx { d with queue := q } c = d.ctx c := rfl

/-- The queued-entry count of the context that an entry carries rises with it (R41). -/
theorem countPlaced_ctx (d : Device) (e : QEntry) (c : Ctx) : (d.countPlaced e).ctx c
    = { d.ctx c with queued := (d.ctx c).queued + if e.ctx? = some c then 1 else 0 } := by
  unfold Device.countPlaced
  cases he : e.ctx? with
  | none => simp
  | some x =>
    by_cases hx : c = x
    · subst hx
      simp
    · rw [Device.ctx_modifyCtx_ne d x c _ hx]
      simp [Ne.symm hx]

/-- And falls with it. -/
theorem countLeft_ctx (d : Device) (e : QEntry) (c : Ctx) : (d.countLeft e).ctx c
    = { d.ctx c with queued := (d.ctx c).queued - if e.ctx? = some c then 1 else 0 } := by
  unfold Device.countLeft
  cases he : e.ctx? with
  | none => simp
  | some x =>
    by_cases hx : c = x
    · subst hx
      simp
    · rw [Device.ctx_modifyCtx_ne d x c _ hx]
      simp [Ne.symm hx]

/-- Counts are those of a device with another queue, whose queued-entry counts follow it. -/
theorem Counted.of_requeued {d e : Device} {q : List QEntry} (h : Counted d) (hf : unchangedBut [.queue, .contexts] d e)
    (hq : e.queue = q) (hs : d.part.state = .starting → q = [])
    (hc : ∀ c, e.ctx c = { d.ctx c with queued := q.countP fun x => decide (x.ctx? = some c) }) : Counted e := by
  have ep : e.part = d.part := hf .part (by decide)
  have eh : e.host = d.host := hf .host (by decide)
  have eo : e.own = d.own := hf .own (by decide)
  refine ⟨fun c => by rw [hc, hq], fun k => ?_, fun c => by rw [hc, eo]; exact h.owned c, fun x hx => ?_, fun k => ?_⟩
  · rw [ep] at k
    exact ⟨hq ▸ hs k, eh ▸ (h.noWait k).2⟩
  · rw [hc]
    exact h.current x (eo ▸ hx)
  · rw [ep] at k
    exact eo ▸ h.unowned k

theorem placeEntry_counted {d : Device} (e : QEntry) (h : Counted d) (hs : d.part.state ≠ .starting) :
    Counted (d.placeEntry e) := by
  refine (placeEntry_worked d e).counted
    (h.of_requeued (counted_frame d e) (countPlaced_queue _ _) (fun k => absurd k hs) fun c => ?_)
  rw [countPlaced_ctx, ctx_setQueue, h.queued, List.countP_append, List.countP_singleton]
  simp only [decide_eq_true_eq]

theorem headLeaves_counted {d : Device} (h : Counted d) : Counted d.headLeaves := by
  refine h.of_requeued ((headLeaves_frame d).mono (by decide)) (headLeaves_queue d)
    (fun k => by rw [(h.noWait k).1]; rfl) fun c => ?_
  have hc := h.queued c
  unfold Device.headLeaves
  cases hq : d.queue with
  | nil =>
    rw [hq] at hc
    simp only [List.tail_nil, ← hc]
  | cons e rest =>
    rw [hq, List.countP_cons] at hc
    simp only [List.tail_cons]
    rw [countLeft_ctx, ctx_setQueue, hc]
    simp only [decide_eq_true_eq, Nat.add_sub_cancel]

/-! ### Lines are owned and released -/

theorem countP_ctx_eq_zero {d : Device} (h : Counted d) {c : Ctx} (hc : (d.ctx c).state = .free) :
    d.own.countP (fun e => decide (e.ctx = c)) = 0 := by
  rw [List.countP_eq_zero]
  intro e he hec
  rw [decide_eq_true_eq] at hec
  exact (h.current e he).1 (hec ▸ hc)

/-- An OPEN of a FREE context, which owns no line (R43). -/
theorem opened_counted {d : Device} {c : Ctx} {i : Word} {t : LeaseTimer} (h : Counted d) (hc : (d.ctx c).state = .free)
    (hs : d.part.state ≠ .starting) : Counted (d.modifyCtx c fun x => { x with
      state := .opened, inst := i, lease := t, leaseExpired := false, spoil := none, owned := 0, newest := none }) where
  queued x := by
    by_cases hx : x = c
    · subst hx
      rw [Device.ctx_modifyCtx]
      exact h.queued x
    · rw [Device.ctx_modifyCtx_ne d c x _ hx]
      exact h.queued x
  noWait k := absurd k hs
  owned x := by
    by_cases hx : x = c
    · subst hx
      rw [Device.ctx_modifyCtx]
      exact (countP_ctx_eq_zero h hc).symm
    · rw [Device.ctx_modifyCtx_ne d c x _ hx]
      exact h.owned x
  current e he := by
    have hne : e.ctx ≠ c := fun hx => (h.current e he).1 (hx ▸ hc)
    rw [Device.ctx_modifyCtx_ne d c e.ctx _ hne]
    exact h.current e he
  unowned k := absurd k hs

/-- Ownership entries changed where neither context nor instance is. -/
theorem Counted.of_relabelled {d : Device} (h : Counted d) {f : OwnEntry → OwnEntry}
    (hf : ∀ e, (f e).ctx = e.ctx ∧ (f e).inst = e.inst) : Counted { d with own := d.own.map f } where
  queued := h.queued
  noWait := h.noWait
  owned c := by
    rw [List.countP_map]
    refine (h.owned c).trans (List.countP_congr fun e _ => ?_)
    simp only [Function.comp, (hf e).1]
  current e he := by
    obtain ⟨x, hx, rfl⟩ := List.mem_map.mp he
    rw [(hf x).1, (hf x).2]
    exact h.current x hx
  unowned k := by
    rw [h.unowned k]
    rfl

/-- One more entry of a context's current instance, and one more in its count. -/
theorem Counted.of_entry {d : Device} (h : Counted d) {c : Ctx} {o : OwnEntry} (ho : o.ctx = c)
    (hi : o.inst = (d.ctx c).inst) (hc : (d.ctx c).state ≠ .free) (hs : d.part.state ≠ .starting) :
    Counted (Device.modifyCtx { d with own := d.own ++ [o] } c fun y => { y with owned := y.owned + 1 }) := by
  have others : ∀ x, x ≠ c →
      (Device.modifyCtx { d with own := d.own ++ [o] } c fun y => { y with owned := y.owned + 1 }).ctx x = d.ctx x :=
    fun x hx => Device.ctx_modifyCtx_ne { d with own := d.own ++ [o] } c x _ hx
  have self : (Device.modifyCtx { d with own := d.own ++ [o] } c fun y => { y with owned := y.owned + 1 }).ctx c
      = { d.ctx c with owned := (d.ctx c).owned + 1 } := Device.ctx_modifyCtx { d with own := d.own ++ [o] } c _
  refine ⟨fun x => ?_, fun k => absurd k hs, fun x => ?_, fun e he => ?_, fun k => absurd k hs⟩
  · by_cases hx : x = c
    · subst hx
      rw [self]
      exact h.queued x
    · rw [others x hx]
      exact h.queued x
  · rw [Device.modifyCtx_own, List.countP_append, List.countP_singleton, ho]
    by_cases hx : x = c
    · subst hx
      rw [self]
      simpa using h.owned x
    · rw [others x hx]
      simpa [Ne.symm hx] using h.owned x
  · have kept : ∀ x, ((Device.modifyCtx { d with own := d.own ++ [o] } c fun y => { y with owned := y.owned + 1 }).ctx x).state
        = (d.ctx x).state ∧
        ((Device.modifyCtx { d with own := d.own ++ [o] } c fun y => { y with owned := y.owned + 1 }).ctx x).inst
        = (d.ctx x).inst := fun x => by
      by_cases hx : x = c
      · subst hx
        rw [self]
        exact ⟨rfl, rfl⟩
      · rw [others x hx]
        exact ⟨rfl, rfl⟩
    rw [(kept e.ctx).1, (kept e.ctx).2]
    rcases List.mem_append.mp he with he | he
    · exact h.current e he
    · rw [List.mem_singleton.mp he, ho]
      exact ⟨hc, hi⟩

/-- Words logged on a line: it is owned by the writing context's current instance (R72, R73). -/
theorem logWords_counted {d : Device} {line : Nat} {c : Ctx} {m : WordSet} (h : Counted d)
    (hc : (d.ctx c).state ≠ .free) (hs : d.part.state ≠ .starting) : Counted (d.logWords line c (d.ctx c).inst m) := by
  unfold Device.logWords
  cases d.ownerOf line with
  | some e => exact h.of_relabelled fun x => by split <;> exact ⟨rfl, rfl⟩
  | none => exact h.of_entry rfl rfl hc hs

/-- All lines of the instance are released, so the context owns none (R59, R75). -/
theorem finish_counted {d : Device} (c : Ctx) (o : FinishOutcome) (h : Counted d) : Counted (d.finish c o) := by
  have others : ∀ x, x ≠ c → (d.finish c o).ctx x = d.ctx x := fun x hx =>
    Device.ctx_modifyCtx_ne { d with own := d.released c } c x _ hx
  have self : (d.finish c o).ctx c = { d.ctx c with
      state := .free, outcome := o, owned := 0, newest := none, lease := (d.ctx c).lease.stop } :=
    Device.ctx_modifyCtx { d with own := d.released c } c _
  have left : ∀ e ∈ d.released c, e ∈ d.own ∧ e.ctx ≠ c := fun e he => by
    obtain ⟨hm, hr⟩ := List.mem_filter.mp he
    rw [decide_eq_true_eq] at hr
    exact ⟨hm, fun hx => hr ⟨hx, hx ▸ (h.current e hm).2⟩⟩
  refine ⟨fun x => ?_, h.noWait, fun x => ?_, fun e he => ?_, fun k => ?_⟩
  · by_cases hx : x = c
    · subst hx
      rw [self]
      exact h.queued x
    · rw [others x hx]
      exact h.queued x
  · by_cases hx : x = c
    · subst hx
      rw [self, finish_own]
      symm
      rw [List.countP_eq_zero]
      intro e he hec
      exact (left e he).2 (of_decide_eq_true hec)
    · rw [others x hx, finish_own]
      refine (h.owned x).trans ?_
      unfold Device.released
      rw [List.countP_filter]
      refine List.countP_congr fun e _ => ?_
      by_cases he : e.ctx = x
      · simp [he, hx]
      · simp [he]
  · obtain ⟨hm, hne⟩ := left e he
    rw [others _ hne]
    exact h.current e hm
  · have hnone : d.own = [] := h.unowned k
    rw [finish_own]
    unfold Device.released
    rw [hnone]
    rfl

/-! ### Starts and resets -/

/-- In STARTING nothing is queued or owned, so the scan's findings begin at 0 (R62). -/
theorem scanned_counted {d : Device} {s : Scan} (h : Counted d) (hs : d.part.state = .starting) : Counted { d with
    contexts := Vector.ofFn fun i : Fin 4 => (d.contexts[i]).afterScan (s.openInst[i]) (s.closed[i]) } := by
  obtain ⟨hq, hw⟩ := h.noWait hs
  have ho := h.unowned hs
  have zero : ∀ (x : ContextEntry) (o : Option OpenInst) (n : Option ClosedNote), x.queued = 0 → x.owned = 0 →
      (x.afterScan o n).queued = 0 ∧ (x.afterScan o n).owned = 0 := fun x o n h1 h2 => by
    cases o <;> cases n <;> exact ⟨by first | rfl | exact h1, by first | rfl | exact h2⟩
  have hctx : ∀ c, Device.ctx { d with
      contexts := Vector.ofFn fun i : Fin 4 => (d.contexts[i]).afterScan (s.openInst[i]) (s.closed[i]) } c
      = (d.ctx c).afterScan (s.openInst[c]) (s.closed[c]) := fun c => by simp [Device.ctx]
  have hz : ∀ c, (d.ctx c).queued = 0 ∧ (d.ctx c).owned = 0 := fun c => by
    rw [h.queued c, h.owned c, hq, ho]
    exact ⟨rfl, rfl⟩
  refine ⟨fun c => ?_, fun _ => ⟨hq, hw⟩, fun c => ?_, fun e he => ?_, fun _ => ho⟩
  · rw [hctx, (zero _ _ _ (hz c).1 (hz c).2).1]
    simp only [hq, List.countP_nil]
  · rw [hctx, (zero _ _ _ (hz c).1 (hz c).2).2]
    simp only [ho, List.countP_nil]
  · simp only [ho] at he
    exact absurd he List.not_mem_nil

theorem cleared_ctx {d : Device} (h : d.contexts = Vector.replicate 4 ContextEntry.cleared) (c : Ctx) :
    d.ctx c = ContextEntry.cleared := by
  unfold Device.ctx
  rw [h]
  simp

/-- A device with every table empty. -/
theorem Counted.of_cleared {d : Device} (hc : d.contexts = Vector.replicate 4 ContextEntry.cleared)
    (hq : d.queue = []) (ho : d.own = []) (hm : ∀ w, d.host.mode ≠ .waiting w) : Counted d where
  queued c := by rw [cleared_ctx hc, hq]; rfl
  noWait _ := ⟨hq, hm⟩
  owned c := by rw [cleared_ctx hc, ho]; rfl
  current e he := by rw [ho] at he; exact absurd he List.not_mem_nil
  unowned _ := ho

theorem beginStart_counted (d : Device) (k : StartKind) (st : Straps) : Counted (d.beginStart k st) := by
  have h : Counted (d.startClear k st) := .of_cleared rfl rfl rfl (by simp [Device.startClear])
  cases k
  · exact .of_cleared rfl rfl rfl (by simp [Device.beginStart, Device.startDefaults, Device.startClear])
  · exact .of_cleared rfl rfl rfl (by simp [Device.beginStart, Device.startDefaults, Device.startClear])
  · exact h.of_frame (copyIfQuiet_frame _)

theorem clearWaiter_kept (d : Device) (k : WaitCond) (c : Ctx) : ContextKept (d.ctx c) ((d.clearWaiter k).ctx c) := by
  unfold Device.clearWaiter
  split
  · exact modifyCtx_kept ⟨rfl, rfl, rfl, id⟩ c
  all_goals exact .refl _

theorem stopLeases_ctx (d : Device) (c : Ctx) :
    d.stopLeases.ctx c = { d.ctx c with lease := (d.ctx c).lease.stop } := by
  simp [Device.stopLeases, Device.ctx]

theorem stopAll_kept (d : Device) (c : Ctx) : ContextKept (d.ctx c) (d.stopAll.ctx c) := by
  have hcut : d.cutAccess.ctx c = d.ctx c := Device.ctx_congr (cutAccess_frame d .contexts (by decide)) c
  have hhost : ContextKept (d.cutAccess.ctx c) (d.cutAccess.cutHost.ctx c) := by
    unfold Device.cutHost
    dsimp only
    split
    · exact clearWaiter_kept _ _ _
    · exact .refl _
  have hstop : d.stopAll.ctx c = d.cutAccess.cutHost.stopLeases.ctx c := rfl
  rw [hstop, stopLeases_ctx, ← hcut]
  exact ⟨hhost.queued, hhost.owned, hhost.inst, hhost.used⟩

theorem tick_ctx (d : Device) (c : Ctx) : d.tick.ctx c = { d.ctx c with lease := (d.ctx c).lease.tick } := by
  simp [Device.tick, Device.ctx]

theorem tick_waiting {m : HostMode} {w : Waiting} (h : m.tick = .waiting w) : ∃ w', m = .waiting w' := by
  cases m with
  | waiting w' => exact ⟨w', rfl⟩
  | _ => simp [HostMode.tick] at h

/-! ### Every change -/

theorem Admission.counted {d e : Device} (h : Admission d e) (hd : Counted d ∧ d.part.state ≠ .starting) :
    Counted e ∧ e.part.state ≠ .starting := by
  obtain ⟨hc, hs⟩ := hd
  cases h with
  | work h => exact ⟨h.counted hc, h.part ▸ hs⟩
  | contexts hf hk =>
    have ep : e.part = d.part := hf .part (by decide)
    exact ⟨hc.of_contexts hf hk, ep ▸ hs⟩
  | host _ => exact ⟨hc.of_kept rfl rfl (fun _ => .refl _) id fun k => absurd k hs, hs⟩
  | @placed x hq =>
    have ep : (d.placeEntry x).part = d.part := placeEntry_frame d x .part (by decide)
    exact ⟨placeEntry_counted x hc hs, ep ▸ hs⟩
  | @logged line c m hf _ =>
    have ep : (d.logWords line c (d.ctx c).inst m).part = d.part := logWords_frame _ _ _ _ _ .part (by decide)
    exact ⟨logWords_counted hc hf hs, ep ▸ hs⟩
  | opened hf => exact ⟨opened_counted hc hf hs, hs⟩

theorem Change.counted {d e : Device} (h : Change d e) (hd : Counted d) : Counted e := by
  cases h with
  | work h => exact h.counted hd
  | contexts hf hk => exact hd.of_contexts hf hk
  | host _ hw => exact hd.of_kept rfl rfl (fun _ => .refl _) id fun _ => hw
  | evaluated c hw =>
    have hs : d.part.state ≠ .starting := by
      rcases hw with hr | ⟨w, hm⟩
      · rw [hr]
        decide
      · exact fun k => (hd.noWait k).2 w hm
    exact ((evaluate_admits d c).keeps (fun _ _ => Admission.counted) ⟨hd, hs⟩).1
  | headLeaves => exact headLeaves_counted hd
  | finished => exact finish_counted _ _ hd
  | located => exact hd.of_relabelled fun x => by split <;> exact ⟨rfl, rfl⟩
  | scanned hs => exact scanned_counted hd hs
  | part _ ht _ _ => exact hd.of_kept rfl rfl (fun _ => .refl _) ht fun _ w hw => ⟨w, hw⟩
  | copied _ => exact hd.of_frame (applyCopy_frame _)
  | drew => exact ⟨hd.queued, hd.noWait, hd.owned, hd.current, hd.unowned⟩
  | frame _ _ => exact hd.of_frame (mgmt_frame _ _)
  | restarted _ => exact beginStart_counted _ _ _

@[simp] theorem stopAll_mode (d : Device) : d.stopAll.host.mode = .stopped := rfl
@[simp] theorem stopAll_state (d : Device) : d.stopAll.part.state = .stopped := rfl

theorem Counted.stopAll {d : Device} (h : Counted d) : Counted d.stopAll :=
  h.of_kept (stopAll_frame d .queue (by decide)) (stopAll_frame d .own (by decide)) (stopAll_kept d)
    (fun k => absurd k (by simp)) fun _ w hw => absurd hw (by simp)

theorem Begins.counted {c : Instr} {d e : Device} (h : Begins c d e) (hd : Counted d) : Counted e := by
  cases h with
  | plain => exact hd
  | written _ _ => exact ⟨hd.queued, hd.noWait, hd.owned, hd.current, hd.unowned⟩
  | pendingWritten _ hw => exact hd.of_frame (writeItems_pending_frame hw d _)
  | applied _ => exact hd.of_frame (takeApply_frame d)
  | settingsWritten hw => exact hd.of_frame (writeItems_settings_frame hw d _)
  | reset _ =>
    have asserted : Counted { d with part := { d.part with rst := true } } :=
      hd.of_kept rfl rfl (fun _ => .refl _) id fun _ w hw => ⟨w, hw⟩
    exact asserted.stopAll
  | released _ =>
    unfold Device.releaseRst
    dsimp only
    split
    · exact beginStart_counted _ _ _
    · exact hd.of_kept rfl rfl (fun _ => .refl _) id fun _ w hw => ⟨w, hw⟩
  | powered _ _ => exact beginStart_counted _ _ _
  | poweredHeld _ _ => exact hd.of_kept rfl rfl (fun _ => .refl _) id fun _ w hw => ⟨w, hw⟩
  | lost => exact .of_cleared rfl rfl rfl (by simp [Device.losePower, Device.unstarted])

theorem tick_counted {d : Device} (h : Counted d) : Counted d.tick :=
  h.of_kept rfl rfl (fun c => by rw [tick_ctx]; exact ⟨rfl, rfl, rfl, id⟩) id fun _ _ hw => tick_waiting hw

/-- Settles O8: each count follows its table at every change, and an instance's lines go with it. -/
theorem stepKeepsCounts : Obligations.StepKeepsCounts :=
  keptByStep_of counted_iff (fun _ h => tick_counted h) (fun _ _ _ hb h => hb.counted h) (fun _ _ hc h => hc.counted h)

end Sys2Proof.Machine
end

section
/-! STOPPED: the part is either awake, and then every change but RST and a loss of power keeps it so, or asleep with every
block stopped, and then only a start wakes it. -/

namespace Sys2Proof.Machine

/-! ### The frame state -/

theorem tied_congr {m n : Management} (h : n.frame = m.frame ∧ n.current = m.current) (hm : m.tied) :
    n.tied := by
  unfold Management.tied at hm ⊢
  rw [h.1, h.2]
  exact hm

theorem Admission.tied {d e : Device} (h : Admission d e) (hd : d.mgmt.tied) : e.mgmt.tied := by
  have same : e.mgmt = d.mgmt → e.mgmt.tied := fun k => by rw [k]; exact hd
  cases h with
  | work h => exact tied_congr h.frameState hd
  | contexts hf _ => exact same (hf .mgmt (by decide))
  | host _ => exact hd
  | placed _ =>
    refine tied_congr (placeEntry_worked _ _).frameState ?_
    rw [counted_frame d _ .mgmt (by decide)]
    exact hd
  | logged _ _ => exact same (logWords_frame _ _ _ _ _ .mgmt (by decide))
  | opened _ => exact hd

theorem Change.tied {d e : Device} (h : Change d e) (hd : d.mgmt.tied) : e.mgmt.tied := by
  have same : e.mgmt = d.mgmt → e.mgmt.tied := fun k => by rw [k]; exact hd
  cases h with
  | work h => exact tied_congr h.frameState hd
  | contexts hf _ => exact same (hf .mgmt (by decide))
  | evaluated c _ => exact (evaluate_admits d c).keeps (P := fun x => x.mgmt.tied) (fun _ _ h k => h.tied k) hd
  | headLeaves => exact same (headLeaves_frame d .mgmt (by decide))
  | frame _ ht => exact ht hd
  | restarted _ => exact same (beginStart_restart_mgmt d _)
  | _ => exact hd

theorem settings_tied {d : Device} {st : Straps} {ws : List (Nat × Word)} (hw : ∀ p ∈ ws, 0x50 ≤ p.1 ∧ p.1 ≤ 0x56)
    (hd : d.mgmt.tied) : (d.writeItems st ws).mgmt.tied := by
  induction ws generalizing d with
  | nil => exact hd
  | cons p ps ih =>
    refine ih (d := d.writeItem st p.1 p.2) (fun q hq => hw q (List.mem_cons_of_mem _ hq)) ?_
    rw [writeItem_setting d st p.2 (hw p List.mem_cons_self)]
    exact hd

theorem Begins.tied {c : Instr} {d e : Device} (h : Begins c d e) (hd : d.mgmt.tied) : e.mgmt.tied := by
  cases h with
  | pendingWritten _ hw => rwa [writeItems_pending_frame hw d _ .mgmt (by decide)]
  | applied _ => rwa [takeApply_frame d .mgmt (by decide)]
  | settingsWritten hw => exact settings_tied (fun p hp => (hw p hp).1) hd
  | reset _ => exact Or.inr rfl
  | released _ =>
    unfold Device.releaseRst
    simp only
    split
    · rw [beginStart_mgmt_of_ne _ (stoppedStartKind_ne _)]
      exact Or.inl rfl
    · exact hd
  | powered _ _ => exact Or.inl rfl
  | lost => exact Or.inr rfl
  | _ => exact hd

/-- Every step keeps the frame state tied to the frame in progress. -/
theorem keptByStep_frameInv : keptByStep FrameInv :=
  keptByStep_of frameInv_iff (fun _ h => h) (fun _ _ _ h => h.tied) fun _ _ h => h.tied

/-! ### Awake and asleep -/

/-- The part has left STOPPED. -/
structure Device.Awake (d : Device) : Prop where
  state : d.part.state ≠ .stopped
  mode : d.host.mode ≠ .stopped
  rst : d.part.rst = false
  powered : d.part.powered = true

/-- The part is STOPPED, and every block with it. -/
structure Device.Asleep (d : Device) : Prop where
  state : d.part.state = .stopped
  mode : d.host.mode = .stopped
  cause : d.part.rst = true ∨ d.part.powered = false
  engine : d.engine = .stopped
  rollback : d.rollback.state = .stopped
  inFlight : d.port.inFlight = none
  waiting : d.port.waiting = []
  timer : d.port.timer.running = false
  port : d.port.state = .unconfigured ∨ d.port.state = .selfRefresh
  frame : d.mgmt.frame = .stopped
  current : d.mgmt.current = none

theorem stoppedTied_iff (d : Device) : d.stoppedTied ↔ d.Awake ∨ d.Asleep := by
  constructor
  · rintro ⟨hcause, hmode, hblocks⟩
    by_cases hs : d.part.state = .stopped
    · obtain ⟨h1, h2, h3, h4, h5, h6, h7, h8⟩ := hblocks hs
      exact Or.inr ⟨hs, hmode.mp hs, hcause.mp hs, h1, h2, h3, h4, h5, h6, h7, h8⟩
    · have hno := mt hcause.mpr hs
      exact Or.inl ⟨hs, mt hmode.mpr hs, by simpa using fun k => hno (Or.inl k), by simpa using fun k => hno (Or.inr k)⟩
  · rintro (h | h)
    · exact ⟨⟨fun k => absurd k h.state, fun k => by simp [h.rst, h.powered] at k⟩,
        ⟨fun k => absurd k h.state, fun k => absurd k h.mode⟩, fun k => absurd k h.state⟩
    · exact ⟨⟨fun _ => h.cause, fun _ => h.state⟩, ⟨fun _ => h.mode, fun _ => h.state⟩,
        fun _ => ⟨h.engine, h.rollback, h.inFlight, h.waiting, h.timer, h.port, h.frame, h.current⟩⟩

theorem Device.Awake.of_same {d e : Device} (h : d.Awake) (hp : e.part = d.part) (hh : e.host = d.host) : e.Awake :=
  ⟨hp ▸ h.state, hh ▸ h.mode, hp ▸ h.rst, hp ▸ h.powered⟩

theorem Device.Awake.of_frame {d e : Device} (h : d.Awake) {l : List Block} (hf : unchangedBut l d e)
    (hp : Block.part ∉ l := by decide) (hh : Block.host ∉ l := by decide) : e.Awake :=
  h.of_same (hf .part hp) (hf .host hh)

/-- What sleeps and differs in no block that STOPPED is about sleeps. -/
theorem Device.Asleep.of_same {d e : Device} (h : d.Asleep) (hs : e.part.state = d.part.state)
    (hr : e.part.rst = d.part.rst) (hw : e.part.powered = d.part.powered) (hh : e.host = d.host)
    (he : e.engine = d.engine) (hb : e.rollback.state = d.rollback.state) (hp : e.port = d.port)
    (hm : e.mgmt.frame = d.mgmt.frame ∧ e.mgmt.current = d.mgmt.current) : e.Asleep :=
  ⟨hs ▸ h.state, hh ▸ h.mode, hr ▸ hw ▸ h.cause, he ▸ h.engine, hb ▸ h.rollback, hp ▸ h.inFlight, hp ▸ h.waiting,
    hp ▸ h.timer, hp ▸ h.port, hm.1 ▸ h.frame, hm.2 ▸ h.current⟩

theorem stopAll_asleep {d : Device} (hr : d.part.rst = true) : d.stopAll.Asleep where
  state := rfl
  mode := rfl
  cause := Or.inl (by
    have hf := ((cutAccess_frame d).comp (cutHost_frame _) (by decide) (by decide) :
      unchangedBut [.dram, .drawn, .contexts, .host] d _) .part (by decide)
    exact (congrArg (·.rst) hf).trans hr)
  engine := rfl
  rollback := rfl
  inFlight := rfl
  waiting := rfl
  timer := rfl
  port := by
    have hf := ((cutAccess_frame d).comp (cutHost_frame _) (by decide) (by decide) :
      unchangedBut [.dram, .drawn, .contexts, .host] d _) .port (by decide)
    change d.cutAccess.cutHost.port.state.afterReset = _ ∨ d.cutAccess.cutHost.port.state.afterReset = _
    cases d.cutAccess.cutHost.port.state <;> simp [PortState.afterReset]
  frame := rfl
  current := rfl

theorem losePower_asleep (d : Device) : d.losePower.Asleep :=
  ⟨rfl, rfl, Or.inr rfl, rfl, rfl, rfl, rfl, rfl, Or.inl rfl, rfl, rfl⟩

/-- A start wakes the part. -/
theorem beginStart_awake {d : Device} (k : StartKind) (st : Straps) (hr : d.part.rst = false)
    (hp : d.part.powered = true) : (d.beginStart k st).Awake := by
  cases k
  · exact ⟨nofun, nofun, hr, hp⟩
  · exact ⟨nofun, nofun, hr, hp⟩
  · have start : (d.startClear .restart st).Awake := ⟨nofun, nofun, hr, hp⟩
    exact start.of_frame (copyIfQuiet_frame _)

/-! ### The part awake -/

theorem Admission.awake {d e : Device} (h : Admission d e) (hd : d.Awake) : e.Awake := by
  cases h with
  | work h => exact hd.of_same h.part h.host
  | contexts hf _ => exact hd.of_frame hf
  | host hm => exact ⟨hd.state, hm, hd.rst, hd.powered⟩
  | placed _ => exact hd.of_frame (placeEntry_frame d _)
  | logged _ _ => exact hd.of_frame (logWords_frame d _ _ _ _)
  | opened _ => exact hd.of_same rfl rfl

theorem Change.awake {d e : Device} (h : Change d e) (hd : d.Awake) : e.Awake := by
  cases h with
  | work h => exact hd.of_same h.part h.host
  | contexts hf _ => exact hd.of_frame hf
  | host hm _ => exact ⟨hd.state, hm, hd.rst, hd.powered⟩
  | evaluated c _ => exact (evaluate_admits d c).keeps (P := Device.Awake) (fun _ _ h k => h.awake k) hd
  | headLeaves => exact hd.of_frame (headLeaves_frame d)
  | part hs _ hr hp => exact ⟨fun k => hd.state (hs k), hd.mode, hr.trans hd.rst, hp.trans hd.powered⟩
  | restarted _ => exact beginStart_awake _ _ hd.rst hd.powered
  | _ => exact hd.of_same rfl rfl

/-- RST and the loss of power alone put an awake part to sleep. -/
theorem Begins.awake {c : Instr} {d e : Device} (h : Begins c d e) (hr : c ≠ .rstAsserted) (hl : c ≠ .powerLoss)
    (hd : d.Awake) : e.Awake := by
  cases h with
  | pendingWritten _ hw => exact hd.of_frame (writeItems_pending_frame hw d _)
  | applied _ => exact hd.of_frame (takeApply_frame d)
  | settingsWritten hw => exact hd.of_frame (writeItems_settings_frame hw d _)
  | reset _ => exact absurd rfl hr
  | lost => exact absurd rfl hl
  | released k => exact absurd (hd.rst.symm.trans k) (by decide)
  | powered k _ => exact absurd (hd.powered.symm.trans k) (by decide)
  | poweredHeld k _ => exact absurd (hd.powered.symm.trans k) (by decide)
  | _ => exact hd.of_same rfl rfl

theorem Runs.awake {c : Instr} {s t : Device} (h : Runs c s t) (hr : c ≠ .rstAsserted) (hl : c ≠ .powerLoss)
    (hs : s.Awake) : t.Awake := by
  obtain ⟨d, e, hbegin, hpath, hend⟩ := h
  have he : e.Awake := hpath.keeps (P := Device.Awake) (fun _ _ h k => h.awake k) (hbegin.awake hr hl hs)
  cases hend with
  | settled => exact (Change.work (settle_worked e)).awake he
  | alike _ _ => exact he
  | inactive _ => exact he

/-! ### The part asleep -/

theorem settle_of_inactive {d : Device} (hp : d.port.state ≠ .active)
    (hs : d.part.state = .starting → d.part.phase ≠ some .undo) : d.settle = d := by
  have hclose : d.closeStart = d := by
    unfold Device.closeStart
    exact if_neg fun ⟨k, hu, _⟩ => hs k hu
  unfold Device.settle
  rw [hclose, tryEnter_of_not_active hp, grant_of_not_active hp]

theorem Device.Asleep.settle {d : Device} (h : d.Asleep) : d.settle = d :=
  settle_of_inactive (by rcases h.port with k | k <;> simp [k]) fun k => absurd (h.state.symm.trans k) (by decide)

theorem Device.Asleep.settle_asleep {d : Device} (h : d.Asleep) : d.settle.Asleep := by rwa [h.settle]

theorem Device.Asleep.select {d : Device} (h : d.Asleep) : d.select = d := by
  unfold Device.select
  exact if_neg fun ⟨k, _⟩ => absurd (h.rollback.symm.trans k) (by decide)

/-- A lease that expires while the part sleeps touches the contexts, the rollback list and the alerts (R50-R52). -/
theorem Device.Asleep.leaseExpired {d : Device} (h : d.Asleep) (c : Ctx) : (d.leaseExpired c).Asleep := by
  have listed : ∀ (x : Device) (o : FinishOutcome), x.Asleep → (x.appendToList c o).Asleep := fun x o hx => by
    have hl : Device.Asleep { x with rollback := { x.rollback with
        list := x.rollback.list ++ [{ ctx := c, inst := (x.ctx c).inst, outcome := o }] } } :=
      hx.of_same rfl rfl rfl rfl rfl rfl rfl ⟨rfl, rfl⟩
    unfold Device.appendToList
    simp only
    rw [hl.select]
    exact hl
  unfold Device.leaseExpired
  split
  · exact h.of_same rfl rfl rfl rfl rfl rfl rfl ⟨rfl, rfl⟩
  · have hu : Device.Asleep ((d.modifyCtx c fun x => { x with leaseExpired := true }).undo c .revoked) :=
      listed _ _ (h.of_same rfl rfl rfl rfl rfl rfl rfl ⟨rfl, rfl⟩)
    have hm := undo_frame (d.modifyCtx c fun x => { x with leaseExpired := true }) c .revoked .mgmt (by decide)
    exact hu.of_same rfl rfl rfl rfl rfl rfl rfl ⟨congrArg (·.frame) hm.symm, congrArg (·.current) hm.symm⟩

theorem Device.Asleep.holdReact {d : Device} (h : d.Asleep) : d.holdReact = d := by
  unfold Device.holdReact
  rw [h.state]

theorem Device.Asleep.restartIfFree {d : Device} (h : d.Asleep) (st : Straps) : d.restartIfFree st = d := by
  unfold Device.restartIfFree
  exact if_neg fun ⟨k, _⟩ => absurd (h.state.symm.trans k) (by decide)

/-- The lines PFWARN are watched while the part sleeps, and nothing follows (R167). -/
theorem Device.Asleep.warn {d : Device} (h : d.Asleep) : d.warn.Asleep := by
  unfold Device.warn
  split
  · exact h
  · have hw : Device.Asleep { d with part := { d.part with pfwarn := true } } :=
      h.of_same rfl rfl rfl rfl rfl rfl rfl ⟨rfl, rfl⟩
    rw [hw.holdReact]
    exact hw

theorem Device.Asleep.takeCycle {d : Device} (h : d.Asleep) (zeros : List Word) (eval : Device → Device) :
    d.takeCycle zeros eval = d := by
  unfold Device.takeCycle
  exact if_neg fun k => absurd (h.mode.symm.trans k) (by decide)

theorem Device.Asleep.clockFrame {d e : Device} (h : d.Asleep) {f : Frame} {ends : Device → Device}
    (hx : d.clockFrame f ends = .next e) : e = d := by
  rcases clockFrame_eq_next.mp hx with ⟨_, rfl⟩ | ⟨k, _⟩
  · rfl
  · exact absurd h.state k

theorem Device.Asleep.frameOfRow {d e : Device} (h : d.Asleep) {row : FrameRow} {f : Frame} {st : Straps}
    (hx : d.frameOfRow row f st = .next e) : e = d :=
  h.clockFrame (frameOfRow_eq_next.mp hx).2

/-- RST is released: the part wakes where power is on, and sleeps on else (R172, R173). -/
theorem Device.Asleep.releaseRst {d : Device} (h : d.Asleep) (st : Straps) :
    (d.releaseRst st).Awake ∨ (d.releaseRst st).Asleep := by
  unfold Device.releaseRst
  simp only
  split
  · next hp => exact Or.inl (beginStart_awake _ _ rfl hp)
  · next hp => exact Or.inr ⟨h.state, h.mode, Or.inr (by simpa using hp), h.engine, h.rollback, h.inFlight, h.waiting,
      h.timer, h.port, h.frame, h.current⟩

/-- A command that finds the part asleep leaves it asleep, or wakes it by a start. -/
theorem exec_of_asleep {c : Instr} {s t : State} (hs : s.dev.Asleep) (h : exec c s = .next t) :
    t.dev.Awake ∨ t.dev.Asleep := by
  have device : ∀ {r : Host.Outcome Device Fault Refusal}, s.onDevice r = .next t → r = .next t.dev := fun hr => by
    obtain ⟨d, rfl, rfl⟩ := onDevice_eq_next.mp hr
    rfl
  have next : ∀ {d : Device}, s.onDevice (.next d) = .next t → t.dev = d := fun hr =>
    (Host.Outcome.next.inj (device hr)).symm
  have same : t.dev = s.dev → t.dev.Awake ∨ t.dev.Asleep := fun k => Or.inr (k ▸ hs)
  have asleep : ∀ {d : Device}, s.onDevice (.next d) = .next t → d.Asleep → t.dev.Awake ∨ t.dev.Asleep :=
    fun hr hd => Or.inr (next hr ▸ hd)
  have mark : ∀ {k : MarkKind} {m : MarkCycle} {eval : Ctx → Device → Device}, s.takeMark k m eval = .next t →
      t.dev.Awake ∨ t.dev.Asleep := fun hm => by
    obtain ⟨x, _, rfl⟩ := takeMark_eq_next hm
    exact same (hs.takeCycle _ _)
  have read : ∀ {u : ReadUse} {k : Device → Nat → List Word → Host.Outcome Device Fault Refusal},
      s.onDevice (s.dev.readDone u k) = .next t → t.dev.Awake ∨ t.dev.Asleep := fun hr => by
    obtain ⟨l, hf, _⟩ := readDone_eq_next.mp (device hr)
    exact absurd (hs.inFlight.symm.trans hf) (by simp)
  have write : ∀ {p : WriteUse → Bool} {k : Device → Host.Outcome Device Fault Refusal},
      s.onDevice (s.dev.writeDone p k) = .next t → t.dev.Awake ∨ t.dev.Asleep := fun hr => by
    obtain ⟨u, w, hf, _⟩ := writeDone_eq_next.mp (device hr)
    exact absurd (hs.inFlight.symm.trans hf) (by simp)
  have port : ∀ {p : PortState}, s.dev.port.state = p → p = .unconfigured ∨ p = .selfRefresh := fun k => k ▸ hs.port
  cases c with
  | hostRead c => exact same ((next h).trans (hs.takeCycle _ _))
  | hostReadAccessComplete => exact read h
  | hostWrite c =>
    change execHostWrite c s = _ at h
    unfold execHostWrite at h
    split at h
    · exact same ((next h).trans (hs.takeCycle _ _))
    · exact absurd h (by simp)
  | openMark m => exact mark h
  | commitMark m => exact mark h
  | abandonMark m => exact mark h
  | renewMark m => exact mark h
  | queryMark m => exact mark h
  | markBadTag m =>
    change execMarkBadTag m s = _ at h
    unfold execMarkBadTag at h
    split at h
    · exact same ((next h).trans (hs.takeCycle _ _))
    · exact absurd h (by simp)
  | waitLimitExpiry =>
    change execWaitLimitExpiry s = _ at h
    unfold execWaitLimitExpiry at h
    simp [hs.mode] at h
  | leaseExpiry c =>
    change execLeaseExpiry c s = _ at h
    unfold execLeaseExpiry at h
    split at h
    · exact asleep h (hs.leaseExpired c).settle_asleep
    · exact absurd h (by simp)
  | oldLineReadComplete => exact read h
  | appendWriteComplete => exact write h
  | dataWriteComplete => exact write h
  | rollbackRecordReadComplete => exact read h
  | restoreWriteComplete => exact write h
  | headerReadComplete => exact read h
  | anchorWriteComplete => exact write h
  | refreshTimerExpiry =>
    change execRefreshTimerExpiry s = _ at h
    unfold execRefreshTimerExpiry at h
    simp [hs.timer] at h
  | refreshComplete =>
    change execRefreshComplete s = _ at h
    unfold execRefreshComplete at h
    simp [hs.inFlight] at h
  | selfRefreshEntryComplete st =>
    change execSelfRefreshEntryComplete st s = _ at h
    unfold execSelfRefreshEntryComplete at h
    split at h
    · next k => exact absurd (port k.1) (by decide)
    · exact absurd h (by simp)
  | selfRefreshExitComplete =>
    change execSelfRefreshExitComplete s = _ at h
    unfold execSelfRefreshExitComplete at h
    split at h
    · next k => exact absurd (port k) (by decide)
    · exact absurd h (by simp)
  | bringUpComplete =>
    change execBringUpComplete s = _ at h
    unfold execBringUpComplete at h
    split at h
    · next k => exact absurd (port k) (by decide)
    · exact absurd h (by simp)
  | anchorReadComplete => exact read h
  | scanLineReadComplete => exact read h
  | pfwarnAsserted => exact asleep h hs.warn.settle_asleep
  | pfwarnNegated st =>
    have hw : Device.Asleep { s.dev with part := { s.dev.part with pfwarn := false } } :=
      hs.of_same rfl rfl rfl rfl rfl rfl rfl ⟨rfl, rfl⟩
    refine asleep h (Device.Asleep.settle_asleep ?_)
    rw [hw.restartIfFree]
    exact hw
  | rstAsserted =>
    change execRstAsserted s = _ at h
    unfold execRstAsserted at h
    simp only at h
    split at h
    · exact same (next h)
    · exact asleep h (stopAll_asleep rfl)
  | rstReleased st =>
    have h := next h
    split at h
    · exact h ▸ hs.releaseRst st
    · exact same h
  | powerOnComplete st =>
    change execPowerOnComplete st s = _ at h
    unfold execPowerOnComplete at h
    simp only at h
    split at h
    · exact absurd h (by simp)
    · have h := next h
      split at h
      · next hr =>
        exact Or.inr (h ▸ ⟨hs.state, hs.mode, Or.inl hr, hs.engine, hs.rollback, hs.inFlight, hs.waiting, hs.timer,
          hs.port, hs.frame, hs.current⟩)
      · next hr => exact Or.inl (h ▸ beginStart_awake _ _ (by simpa using hr) rfl)
  | powerLoss => exact asleep h (losePower_asleep _)
  | managementReadFrame f =>
    change execManagementReadFrame f s = _ at h
    unfold execManagementReadFrame at h
    split at h
    · exact same (hs.clockFrame (device h))
    · exact absurd h (by simp)
  | frameEndsBeforeCommandByte bits => exact same (hs.clockFrame (device h))
  | pendingTableWrite f => exact same (hs.frameOfRow (device h))
  | activeTableWrite f => exact same (hs.frameOfRow (device h))
  | applyRequest f => exact same (hs.frameOfRow (device h))
  | formatCommand f => exact same (hs.frameOfRow (device h))
  | holdCommand f => exact same (hs.frameOfRow (device h))
  | releaseCommand f st => exact same (hs.frameOfRow (device h))
  | alertCausesClear f => exact same (hs.frameOfRow (device h))
  | alertMaskWrite f => exact same (hs.frameOfRow (device h))
  | settingWrite f => exact same (hs.frameOfRow (device h))

/-- A command that finds the part awake leaves it awake, or puts it to sleep by RST or the loss of power. -/
theorem exec_of_awake {c : Instr} {s t : State} (hs : s.dev.Awake) (h : exec c s = .next t) :
    t.dev.Awake ∨ t.dev.Asleep := by
  have next : ∀ {d : Device}, s.onDevice (.next d) = .next t → t.dev = d := fun hr =>
    congrArg State.dev (Host.Outcome.next.inj hr).symm
  by_cases hr : c = .rstAsserted
  · subst hr
    change execRstAsserted s = _ at h
    unfold execRstAsserted at h
    simp only [hs.rst] at h
    exact Or.inr (next h ▸ stopAll_asleep rfl)
  by_cases hl : c = .powerLoss
  · subst hl
    exact Or.inr (next h ▸ losePower_asleep _)
  · exact Or.inl ((exec_runs h).awake hr hl hs)

theorem exec_stoppedTied {c : Instr} {s t : State} (hs : s.dev.stoppedTied) (h : exec c s = .next t) :
    t.dev.stoppedTied := by
  rw [stoppedTied_iff] at hs ⊢
  exact hs.elim (exec_of_awake · h) (exec_of_asleep · h)

theorem tick_mode_stopped (d : Device) : d.tick.host.mode = .stopped ↔ d.host.mode = .stopped := by
  change d.host.mode.tick = .stopped ↔ _
  cases d.host.mode <;> simp [HostMode.tick]

theorem tick_stoppedTied {d : Device} (h : d.stoppedTied) : d.tick.stoppedTied := by
  rw [stoppedTied_iff] at h ⊢
  rcases h with h | h
  · exact Or.inl ⟨h.state, mt (tick_mode_stopped d).mp h.mode, h.rst, h.powered⟩
  · have timer : d.port.timer.tick = d.port.timer := by
      unfold RefreshTimer.tick
      simp [h.timer]
    refine Or.inr ⟨h.state, (tick_mode_stopped d).mpr h.mode, h.cause, h.engine, h.rollback, h.inFlight, h.waiting, ?_,
      h.port, h.frame, h.current⟩
    exact (congrArg (·.running) timer).trans h.timer

theorem step_stoppedTied {s t : State} (hs : s.dev.stoppedTied) (h : step s = .next t) : t.dev.stoppedTied := by
  unfold step at h
  split at h
  · exact (congrArg State.dev (Host.Outcome.next.inj h)) ▸ tick_stoppedTied hs
  · next c rest _ => exact exec_stoppedTied (s := { s with pending := rest }) hs h

/-- Settles O10: RST and the loss of power alone put the part to sleep, with every block stopped, and a start alone wakes
it; the frame state follows the frame in progress at every change. -/
theorem stepKeepsStopped : Obligations.StepKeepsStopped := fun _ _ ⟨hs, hf⟩ h =>
  ⟨step_stoppedTied hs h, keptByStep_frameInv _ _ hf h⟩

end Sys2Proof.Machine
end

section
/-! What every command ends with leaves nothing to settle: the closing anchor write, self-refresh entry and the grant are
each made once, and none makes room for another. -/

namespace Sys2Proof.Machine

/-! ### The queue of an idle engine, and the requests -/

/-- No refresh waits among the requests, and an idle engine has no entry to take up. -/
structure Tended (d : Device) : Prop where
  waiting : Access.refresh ∉ d.port.waiting
  queue : d.engine = .idle → d.queue = []

theorem engineNext_idle {d : Device} (h : d.engineNext.engine = .idle) : d.queue = [] := by
  unfold Device.engineNext at h
  have data : ∀ x : Device, x.requestData.engine = x.engine := fun x => requestData_frame x .engine (by decide)
  have append : ∀ (x : Device) (w : Appender) (r : RecordReq), (x.requestAppend w r).engine = x.engine := fun x w r =>
    requestAppend_frame x w r .engine (by decide)
  split at h
  · next k => exact k
  · exact absurd ((data _).symm.trans h) (by simp)
  · exact absurd ((data _).symm.trans h) (by simp)
  · exact absurd ((append _ _ _).symm.trans h) (by simp)
  · exact absurd ((append _ _ _).symm.trans h) (by simp)
  · exact absurd h (by simp [Device.request])

theorem engineSees_idle {d : Device} (h : d.engineSees.engine = .idle) : d.queue = [] := by
  unfold Device.engineSees at h
  split at h
  · exact engineNext_idle h
  · exact absurd h (by simp)
  · next k _ => exact absurd h k

theorem Worked.tended {d e : Device} (h : Worked d e) (hd : Tended d) : Tended e where
  waiting := mt h.waiting hd.waiting
  queue k := h.queue ▸ (h.engine k).elim hd.queue id

theorem Tended.of_same {d e : Device} (h : Tended d) (hp : e.port = d.port) (he : e.engine = d.engine)
    (hq : e.queue = d.queue) : Tended e :=
  ⟨hp ▸ h.waiting, fun k => hq ▸ h.queue (he ▸ k)⟩

theorem Tended.of_frame {d e : Device} (h : Tended d) {l : List Block} (hf : unchangedBut l d e)
    (hp : Block.port ∉ l := by decide) (he : Block.engine ∉ l := by decide) (hq : Block.queue ∉ l := by decide) :
    Tended e :=
  h.of_same (hf .port hp) (hf .engine he) (hf .queue hq)

theorem Admission.tended {d e : Device} (h : Admission d e) (hd : Tended d) : Tended e := by
  cases h with
  | work h => exact h.tended hd
  | contexts hf _ => exact hd.of_frame hf
  | placed _ =>
    refine ⟨fun k => hd.waiting ?_, fun k => ?_⟩
    · rw [← (counted_frame d _ .port (by decide) : _ = d.port)]
      exact (placeEntry_worked d _).waiting k
    · exact absurd (engineSees_idle k) (by rw [countPlaced_queue]; simp)
  | logged _ _ => exact hd.of_frame (logWords_frame d _ _ _ _)
  | _ => exact hd.of_same rfl rfl rfl

theorem startBringUp_waiting (p : MemPort) : p.startBringUp.waiting = [] := by
  unfold MemPort.startBringUp
  split <;> rfl

theorem beginStart_tended (d : Device) (k : StartKind) (st : Straps) : Tended (d.beginStart k st) := by
  have cleared : Tended (d.startClear k st) :=
    ⟨by change _ ∉ d.port.startBringUp.waiting; rw [startBringUp_waiting]; simp, fun _ => rfl⟩
  cases k
  · exact cleared.of_same rfl rfl rfl
  · exact cleared.of_same rfl rfl rfl
  · exact cleared.of_frame (copyIfQuiet_frame _)

theorem Change.tended {d e : Device} (h : Change d e) (hd : Tended d) : Tended e := by
  cases h with
  | work h => exact h.tended hd
  | contexts hf _ => exact hd.of_frame hf
  | evaluated c _ => exact (evaluate_admits d c).keeps (P := Tended) (fun _ _ h k => h.tended k) hd
  | headLeaves =>
    have hf := headLeaves_frame d
    refine ⟨by rw [hf .port (by decide)]; exact hd.waiting, fun k => ?_⟩
    rw [headLeaves_queue, hd.queue ((hf .engine (by decide) : _ = d.engine) ▸ k)]
    rfl
  | restarted _ => exact beginStart_tended _ _ _
  | _ => exact hd.of_same rfl rfl rfl

theorem Begins.tended {c : Instr} {d e : Device} (h : Begins c d e) (hd : Tended d) : Tended e := by
  cases h with
  | written _ _ => exact ⟨hd.waiting, hd.queue⟩
  | pendingWritten _ hw => exact hd.of_frame (writeItems_pending_frame hw d _)
  | applied _ => exact hd.of_frame (takeApply_frame d)
  | settingsWritten hw => exact hd.of_frame (writeItems_settings_frame hw d _)
  | reset _ => exact ⟨List.not_mem_nil, nofun⟩
  | released _ =>
    unfold Device.releaseRst
    simp only
    split
    · exact beginStart_tended _ _ _
    · exact hd.of_same rfl rfl rfl
  | powered _ _ => exact beginStart_tended _ _ _
  | lost => exact ⟨List.not_mem_nil, nofun⟩
  | _ => exact hd.of_same rfl rfl rfl

theorem Runs.tended {c : Instr} {s t : Device} (h : Runs c s t) (hs : Tended s) : Tended t :=
  h.keeps (P := Tended) (fun _ _ _ h k => h.tended k) (fun _ _ h k => h.tended k) hs

/-! ### The end of a command, made twice -/

/-- Part control asks for self-refresh entry now (R169). -/
def Device.enters (d : Device) : Prop :=
  d.part.state = .holding ∧ d.port.state = .active ∧ d.blocksIdle = true ∧ d.requestersIdle = true

theorem tryEnter_state {d : Device} (h : d.enters) : d.tryEnter.port.state = .entering := by
  unfold Device.enters at h
  unfold Device.tryEnter
  rw [if_pos h]
  unfold Device.closeBanks
  split <;> rfl

theorem tryEnter_eq_self_iff (d : Device) : d.tryEnter = d ↔ ¬ d.enters := by
  constructor
  · intro h k
    have := tryEnter_state k
    rw [h, k.2.1] at this
    exact absurd this (by decide)
  · intro h
    exact if_neg h

theorem closeStart_closeStart (d : Device) : d.closeStart.closeStart = d.closeStart := by
  by_cases h : d.closeStart = d
  · rw [h, h]
  · have hc : d.closeStart = d.issueAnchor .closing := by
      unfold Device.closeStart at h ⊢
      split_ifs at h ⊢
      · rfl
      · exact absurd rfl h
    have hanchor : (d.issueAnchor .closing).journal.anchor ≠ none := by simp [Device.issueAnchor, Device.request]
    rw [hc]
    exact if_neg fun ⟨_, _, _, _, _, k⟩ => hanchor k

theorem tryEnter_tryEnter (d : Device) : d.tryEnter.tryEnter = d.tryEnter := by
  by_cases h : d.enters
  · exact tryEnter_of_not_active (by rw [tryEnter_state h]; decide)
  · rw [(tryEnter_eq_self_iff d).mpr h, (tryEnter_eq_self_iff d).mpr h]

/-- After a grant moment no further access can be granted (R154). -/
theorem grant_quiet (d : Device) : quietPort d.grant.port := by
  by_cases hq : quietPort d.port
  · rwa [(grant_eq_self_iff d).mpr hq]
  · unfold Device.grant
    split
    · split
      · next hbest =>
        have hgrant : d.grant = d := by
          unfold Device.grant
          split <;> simp_all
        exact (grant_eq_self_iff d).mp hgrant
      · exact Or.inr (Or.inl (by simp [Device.granted]))
    · next h => exact absurd ((grant_eq_self_iff d).mp (if_neg h)) hq

theorem onGrant_refresh (e : Engine) : e.onGrant .refresh = e := by
  cases e <;> rfl

/-- The grant of a refresh leaves the requesters as idle as they were: where self-refresh entry may follow it, it could
go before it. -/
theorem enters_of_grant {d : Device} (hw : Access.refresh ∉ d.port.waiting) (h : d.grant.enters) : d.enters := by
  by_cases hsame : d.grant = d
  · rwa [hsame] at h
  · obtain ⟨a, hg, hnone⟩ : ∃ a, d.grant = d.granted a ∧ d.port.inFlight = none := by
      unfold Device.grant at hsame ⊢
      split_ifs at hsame ⊢ with hk
      · cases hb : bestRequest d.port.owed d.port.requests with
        | none => simp [hb] at hsame
        | some a => exact ⟨a, rfl, hk.2⟩
      · exact absurd rfl hsame
    obtain ⟨hs, hp, hb, hr⟩ := h
    rw [hg] at hs hp hb hr
    have hrefresh : a = .refresh ∧ d.port.waiting.erase a = [] := by
      unfold Device.requestersIdle at hr
      simpa [Device.granted, and_comm] using hr
    obtain ⟨rfl, herase⟩ := hrefresh
    rw [List.erase_of_not_mem hw] at herase
    have hengine : (d.granted .refresh).engine = d.engine := onGrant_refresh d.engine
    refine ⟨hs, hp, ?_, ?_⟩
    · unfold Device.blocksIdle at hb ⊢
      rw [hengine] at hb
      exact hb
    · simp [Device.requestersIdle, herase, hnone]

theorem settle_settle {d : Device} (h : Tended d) : d.settle.settle = d.settle := by
  have hclosed : Tended d.closeStart := by
    unfold Device.closeStart
    split
    · exact (issueAnchor_worked d _).tended h
    · exact h
  have htried : Tended d.closeStart.tryEnter := (tryEnter_worked _).tended hclosed
  have hf : unchangedBut [.engine, .port] d.closeStart d.settle :=
    (tryEnter_frame _).comp (grant_frame _) (by decide) (by decide)
  have hclose : d.settle.closeStart = d.settle :=
    closeStart_congr (closeStart_closeStart d) (by rw [hf .part (by decide)]) (by rw [hf .part (by decide)])
      (by rw [hf .rollback (by decide)]) (hf .journal (by decide))
  have henter : d.settle.tryEnter = d.settle := by
    refine (tryEnter_eq_self_iff _).mpr fun k => ?_
    exact (tryEnter_eq_self_iff _).mp (tryEnter_tryEnter d.closeStart) (enters_of_grant htried.waiting k)
  have hgrant : d.settle.grant = d.settle := (grant_eq_self_iff _).mpr (grant_quiet _)
  rw [show d.settle.settle = d.settle.closeStart.tryEnter.grant from rfl, hclose, henter, hgrant]

/-! ### Every step -/

theorem settledInv_iff (s : State) : SettledInv s ↔ s.dev.settle = s.dev ∧ Tended s.dev :=
  ⟨fun ⟨h, hw, hq⟩ => ⟨h, hw, hq⟩, fun ⟨h, k⟩ => ⟨h, k.waiting, k.queue⟩⟩

theorem Runs.settle_eq {c : Instr} {s t : Device} (h : Runs c s t) (hs : s.stoppedTied) (hset : s.settle = s)
    (ht : Tended s) : t.settle = t := by
  obtain ⟨d, e, hbegin, hpath, hend⟩ := h
  cases hend with
  | settled => exact settle_settle (hpath.keeps (P := Tended) (fun _ _ h k => h.tended k) (hbegin.tended ht))
  | alike hf hm =>
    have hpart : t.part = s.part := hf .part (by decide)
    exact settle_congr hset (by rw [hpart]) (by rw [hpart]) (hf .rollback (by decide)) (hf .journal (by decide)) hm
      (hf .queue (by decide)) (hf .engine (by decide)) (hf .port (by decide))
  | inactive h =>
    obtain ⟨hp, hu⟩ := h hs
    exact settle_of_inactive hp hu

theorem tick_mode_idle (d : Device) : d.tick.host.mode = .idle ↔ d.host.mode = .idle := by
  change d.host.mode.tick = .idle ↔ _
  cases d.host.mode <;> simp [HostMode.tick]

/-- The passing of time moves timers only, which the end of a command does not look at. -/
theorem tick_settle {d : Device} (h : d.settle = d) : d.tick.settle = d.tick := by
  obtain ⟨hclose, henter, hgrant⟩ := settled_parts h
  have hblocks : d.tick.blocksIdle = d.blocksIdle := by
    have hmode : decide (d.tick.host.mode = .idle) = decide (d.host.mode = .idle) :=
      decide_eq_decide.mpr (tick_mode_idle d)
    unfold Device.blocksIdle
    rw [hmode]
    rfl
  have hc : d.tick.closeStart = d.tick := closeStart_congr hclose rfl rfl rfl rfl
  have he : d.tick.tryEnter = d.tick := by
    refine (tryEnter_eq_self_iff _).mpr fun ⟨hs, hp, hb, hr⟩ => (tryEnter_eq_self_iff _).mp henter ⟨hs, hp, ?_, hr⟩
    rwa [hblocks] at hb
  have hg : d.tick.grant = d.tick := (grant_eq_self_iff _).mpr ((grant_eq_self_iff d).mp hgrant)
  rw [show d.tick.settle = d.tick.closeStart.tryEnter.grant from rfl, hc, he, hg]

theorem tick_tended {d : Device} (h : Tended d) : Tended d.tick := ⟨h.waiting, h.queue⟩

/-- Settles O11: what every command ends with leaves nothing to settle, and a command that ends without it finds
nothing. -/
theorem stepKeepsSettled : Obligations.StepKeepsSettled := by
  rintro s t ⟨hs, hset⟩ h
  obtain ⟨heq, ht⟩ := (settledInv_iff s).mp hset
  refine ⟨step_stoppedTied hs h, (settledInv_iff t).mpr ?_⟩
  rcases step_cases h with ⟨_, htick⟩ | ⟨c, _, _, hrun⟩
  · rw [htick]
    exact ⟨tick_settle heq, tick_tended ht⟩
  · exact ⟨hrun.settle_eq hs heq ht, hrun.tended ht⟩

end Sys2Proof.Machine
end

section
/-! The step, the values at power-on, and how a host cycle is taken: outside RUNNING, and where nothing is left to settle
behind its evaluation. -/

namespace Sys2Proof.Machine

/-! ### The step -/

/-- Settles O1. -/
theorem stepRunsFrontCommand : Obligations.StepRunsFrontCommand := fun _ _ _ => rfl

theorem LeaseTimer.tick_of_running {t : LeaseTimer} (h : t.running = true) :
    t.tick = { t with elapsed := min (t.elapsed + 1) (2000 * t.lengthMs) } := if_pos h

theorem LeaseTimer.tick_of_stopped {t : LeaseTimer} (h : t.running = false) : t.tick = t := if_neg (by simp [h])

theorem RefreshTimer.tick_of_running {t : RefreshTimer} (h : t.running = true) :
    t.tick = { t with elapsed := min (t.elapsed + 1) t.interval } := if_pos h

theorem RefreshTimer.tick_of_stopped {t : RefreshTimer} (h : t.running = false) : t.tick = t := if_neg (by simp [h])

theorem LeaseTimer.tick_kept (t : LeaseTimer) : t.tick.running = t.running ∧ t.tick.lengthMs = t.lengthMs := by
  unfold LeaseTimer.tick
  split <;> exact ⟨rfl, rfl⟩

theorem tick_mode (d : Device) : d.tick.host.mode = d.host.mode.tick := rfl

/-- Settles O2: a tick goes over the lease timers, the wait timer and the refresh timer, and over nothing else. -/
theorem emptyQueueLetsTimePass : Obligations.EmptyQueueLetsTimePass := by
  intro s hs
  have hstep : step s = .next { s with dev := s.dev.tick } := by
    unfold step
    rw [hs]
  refine ⟨_, hstep, hs, tick_frame _, fun c => ?_, rfl, fun w hw => ?_, fun r hr => ?_, fun h => ?_, rfl, fun h => ?_,
    fun h => ?_⟩
  · have hlease := (s.dev.ctx c).lease.tick_kept
    rw [tick_ctx]
    exact ⟨rfl, hlease.1, hlease.2, LeaseTimer.tick_of_stopped, fun h => by rw [LeaseTimer.tick_of_running h]⟩
  · rw [tick_mode, hw]
    rfl
  · rw [tick_mode, hr]
    rfl
  · rw [tick_mode]
    rcases h with h | h <;> rw [h] <;> rfl
  · exact RefreshTimer.tick_of_stopped h
  · exact RefreshTimer.tick_of_running h

/-! ### Power-on -/

/-- Settles O4, by evaluation. -/
theorem resetValues : Obligations.ResetValues := by
  unfold Obligations.ResetValues
  decide

/-- The part sleeps when power comes. -/
theorem reset_asleep : State.reset.dev.Asleep :=
  ⟨rfl, rfl, Or.inr rfl, rfl, rfl, rfl, rfl, rfl, Or.inl rfl, rfl, rfl⟩

/-- Settles O5: the tables are empty when power comes, and the part sleeps. -/
theorem invariantsHoldAtReset : Obligations.InvariantsHoldAtReset := by
  have bounds : BoundsInv State.reset := by
    unfold BoundsInv
    decide
  have queued : QueuedInv State.reset := ⟨by decide, nofun⟩
  have owned : OwnershipInv State.reset := ⟨by decide, nofun, nofun⟩
  have settings : SettingsInv State.reset := by
    unfold SettingsInv
    decide
  have stopped : StoppedInv State.reset := (stoppedTied_iff _).mpr (Or.inr reset_asleep)
  have settled : SettledInv State.reset := ⟨reset_asleep.settle, List.not_mem_nil, fun _ => rfl⟩
  have regions : RegionsInv State.reset := by
    unfold RegionsInv
    decide
  exact ⟨State.reset_memory_wf, bounds, queued, owned, settings, stopped, Or.inr rfl, settled, regions⟩

/-! ### How a cycle is taken -/

/-- The block when a cycle arrives: the last answer is gone (R19). -/
def Device.arrived (d : Device) : Device := { d with host := { d.host with answer := none } }

theorem takeCycle_busy {d : Device} (zeros : List Word) (eval : Device → Device) (h : d.host.mode ≠ .idle) :
    d.takeCycle zeros eval = d := if_neg h

/-- An evaluation that leaves the part and the memory port as they are is followed by nothing to settle (R154). -/
theorem takeCycle_unported {s : State} {zeros : List Word} {eval : Device → Device} (he : s.evaluates)
    (hs : SettledInv s) (hpart : (eval s.dev.arrived).part = s.dev.part)
    (hport : (eval s.dev.arrived).port = s.dev.port) : s.dev.takeCycle zeros eval = eval s.dev.arrived := by
  obtain ⟨hrun, hidle⟩ := he
  rw [takeCycle_running zeros eval hidle hrun]
  exact hs.settle_running (hpart.symm ▸ hrun) hport

/-- An evaluation that keeps the part is followed by a grant moment alone (R154). -/
theorem takeCycle_granted {s : State} {zeros : List Word} {eval : Device → Device} (he : s.evaluates)
    (hpart : (eval s.dev.arrived).part = s.dev.part) : s.dev.takeCycle zeros eval = (eval s.dev.arrived).grant := by
  obtain ⟨hrun, hidle⟩ := he
  rw [takeCycle_running zeros eval hidle hrun]
  exact settle_of_running (hpart.symm ▸ hrun)

theorem exec_hostRead (c : ReadCycle) (s : State) : exec (.hostRead c) s = .next (s.withDev
    (s.dev.takeCycle (List.replicate c.blen.beats 0) fun d => d.evalRead c d.mgmt.settings.burstOrder)) := rfl

theorem exec_hostWrite {c : WriteCycle} (h : c.data.length = c.blen.beats) (s : State) :
    exec (.hostWrite c) s = .next (s.withDev (s.dev.takeCycle [] fun d => d.evalWrite c d.mgmt.settings.burstOrder)) :=
  if_pos h

theorem exec_openMark {m : MarkCycle} {c : Ctx} (h : markRequest m.addr = some (.openKind, c)) (s : State) :
    exec (.openMark m) s = .next (s.withDev (s.dev.takeCycle [0] fun d => d.evalOpen c)) :=
  takeMark_of_markRequest (fun c d => d.evalOpen c) h

theorem exec_commitMark {m : MarkCycle} {c : Ctx} (h : markRequest m.addr = some (.commitKind, c)) (s : State) :
    exec (.commitMark m) s = .next (s.withDev (s.dev.takeCycle [0] fun d => d.evalCommit c)) :=
  takeMark_of_markRequest (fun c d => d.evalCommit c) h

theorem exec_abandonMark {m : MarkCycle} {c : Ctx} (h : markRequest m.addr = some (.abandonKind, c)) (s : State) :
    exec (.abandonMark m) s = .next (s.withDev (s.dev.takeCycle [0] fun d => d.evalAbandon c)) :=
  takeMark_of_markRequest (fun c d => d.evalAbandon c) h

theorem exec_markBadTag {m : MarkCycle} (h : markNamesNothing m.addr = true) (s : State) :
    exec (.markBadTag m) s = .next (s.withDev (s.dev.takeCycle [0] fun d =>
      d.refuse .badTag [0] m.addr (markCtxField m.addr) .mark)) := if_pos h

theorem markNames_iff (k : MarkKind) (addr : Word) :
    markNames k addr = true ↔ ∃ c, markRequest addr = some (k, c) := by
  unfold markNames
  rw [decide_eq_true_iff, Option.map_eq_some_iff]
  constructor
  · rintro ⟨⟨x, c⟩, h, rfl⟩
    exact ⟨c, h⟩
  · rintro ⟨c, h⟩
    exact ⟨_, h, rfl⟩

/-- A command that is a host cycle is taken as one, with the data that its row answers with. -/
theorem exec_of_cycleZeros {i : Instr} {zeros : List Word} (h : cycleZeros i = some zeros) (s : State) :
    ∃ eval, exec i s = .next (s.withDev (s.dev.takeCycle zeros eval)) := by
  have mark : ∀ {k : MarkKind} {m : MarkCycle} (eval : Ctx → Device → Device),
      (if markNames k m.addr then some ([0] : List Word) else none) = some zeros →
      ∃ e, s.takeMark k m eval = .next (s.withDev (s.dev.takeCycle zeros e)) := fun eval hm => by
    split at hm
    · next hn =>
      obtain ⟨c, hc⟩ := (markNames_iff _ _).mp hn
      exact ⟨eval c, Option.some.inj hm ▸ takeMark_of_markRequest eval hc⟩
    · exact absurd hm (by simp)
  cases i with
  | hostRead c => exact ⟨_, Option.some.inj h ▸ exec_hostRead c s⟩
  | hostWrite c =>
    simp only [cycleZeros] at h
    split at h
    · next hl => exact ⟨_, Option.some.inj h ▸ exec_hostWrite hl s⟩
    · exact absurd h (by simp)
  | openMark m => exact mark (fun c d => d.evalOpen c) h
  | commitMark m => exact mark (fun c d => d.evalCommit c) h
  | abandonMark m => exact mark (fun c d => d.evalAbandon c) h
  | renewMark m => exact mark (fun c d => d.evalRenew c) h
  | queryMark m => exact mark (fun c d => d.reply c .status) h
  | markBadTag m =>
    simp only [cycleZeros] at h
    split at h
    · next hn => exact ⟨_, Option.some.inj h ▸ exec_markBadTag hn s⟩
    · exact absurd h (by simp)
  | _ => exact absurd h (by simp [cycleZeros])

/-- Settles O18: a cycle is answered by the part state before its evaluation is asked for. -/
theorem cyclesOutsideRunning : Obligations.CyclesOutsideRunning := by
  intro i zeros s h
  obtain ⟨eval, he⟩ := exec_of_cycleZeros h s
  rw [he]
  exact ⟨fun hi hp => by rw [takeCycle_starting zeros eval hi hp]; rfl,
    fun hi hp => by rw [takeCycle_holding zeros eval hi hp]; rfl,
    fun hb => by rw [takeCycle_busy zeros eval hb]; rfl⟩

/-! ### Classification -/

theorem regionClass_of_none {u : Nat} {l : List RegionEntry} (h : ∀ e ∈ l, e.covers u = false) :
    regionClass u l = .region .pass .current := by
  induction l with
  | nil => rfl
  | cons e es ih =>
    unfold regionClass
    simp only [h e List.mem_cons_self]
    exact ih fun x hx => h x (List.mem_cons_of_mem _ hx)

/-- The only entry that covers the unit gives its mode and view (R3). -/
theorem regionClass_of_covering {u : Nat} {l : List RegionEntry} {e : RegionEntry} {m : RegionMode} {v : ReadView}
    (he : e ∈ l) (hc : e.covers u = true) (honly : ∀ x ∈ l, x.covers u = true → x = e)
    (hm : regionModeOf e.mode = some m) (hv : readViewOf e.view = some v) : regionClass u l = .region m v := by
  induction l with
  | nil => exact absurd he List.not_mem_nil
  | cons x xs ih =>
    unfold regionClass
    by_cases hx : x.covers u = true
    · obtain rfl := honly x List.mem_cons_self hx
      simp only [hc, hm, hv]
    · have hne : e ≠ x := fun k => hx (k ▸ hc)
      simp only [hx]
      exact ih ((List.mem_cons.mp he).resolve_left hne) fun y hy => honly y (List.mem_cons_of_mem _ hy)

theorem covers_iff (e : RegionEntry) (a : Nat) : e.covers (a / 65536) = true ↔
    e.size ≠ 0 ∧ 65536 * e.base.toNat ≤ a ∧ a < 65536 * (e.base.toNat + e.size.toNat) := by
  unfold RegionEntry.covers RegionEntry.used RegionEntry.limit
  simp only [Bool.and_eq_true, decide_eq_true_eq, and_assoc]
  refine and_congr_right fun _ => ?_
  omega

theorem mem_active_iff {d : Device} {e : RegionEntry} :
    e ∈ d.regions.active.toList ↔ ∃ i : Fin 8, d.regions.active[i] = e := by
  rw [Vector.mem_toList_iff, Vector.mem_iff_getElem]
  exact ⟨fun ⟨i, hi, h⟩ => ⟨⟨i, hi⟩, h⟩, fun ⟨i, h⟩ => ⟨i.val, i.isLt, h⟩⟩

theorem journalBase_lt_capacity (st : Straps) : journalBase st < capacity st := by
  have hc : 0 < capacity st := by simp [capacity]
  have hj : 0 < journalSize st := by simp [journalSize]
  exact Nat.sub_lt hc hj

theorem classify_below {d : Device} {a : Word} (h : a.toNat < journalBase d.part.straps) :
    d.classify a = regionClass (a.toNat / 65536) d.regions.active.toList := by
  have hc := journalBase_lt_capacity d.part.straps
  unfold Device.classify
  rw [if_neg (by omega), if_neg (by omega)]

theorem classify_outside {d : Device} {a : Word} (h : capacity d.part.straps ≤ a.toNat) : d.classify a = .outside :=
  if_pos h

theorem classify_protected {d : Device} {a : Word} (h : journalBase d.part.straps ≤ a.toNat)
    (hc : a.toNat < capacity d.part.straps) : d.classify a = .protectedArea := by
  unfold Device.classify
  rw [if_neg (by omega), if_pos h]

/-- The sizes that the straps select, strap code by strap code (00_scope, Straps). -/
theorem straps_sizes (st : Straps) :
    capacity st = (match st.msel.toNat with
      | 0 => 64 * 1048576
      | 1 => 128 * 1048576
      | 2 => 256 * 1048576
      | _ => 512 * 1048576)
    ∧ journalSize st = (match st.jsel.toNat with
      | 0 => 256 * 1024
      | 1 => 1024 * 1024
      | 2 => 4096 * 1024
      | _ => 16384 * 1024) := by
  have hm : ∀ m : BitVec 2, 0x4000000 * 2 ^ m.toNat = (match m.toNat with
      | 0 => 64 * 1048576
      | 1 => 128 * 1048576
      | 2 => 256 * 1048576
      | _ => 512 * 1048576) := by decide
  have hj : ∀ j : BitVec 2, 0x40000 * 4 ^ j.toNat = (match j.toNat with
      | 0 => 256 * 1024
      | 1 => 1024 * 1024
      | 2 => 4096 * 1024
      | _ => 16384 * 1024) := by decide
  exact ⟨hm _, hj _⟩

/-- Settles O19: the straps' tables code by code, and the first entry that covers the unit is the only one. -/
theorem classifiedByAddress : Obligations.ClassifiedByAddress := by
  refine ⟨fun st => ?_, by decide, by decide, fun d addr => ?_⟩
  · obtain ⟨hc, hj⟩ := straps_sizes st
    exact ⟨hc, congrArg (capacity st - ·) hj, congrArg (fun n => (n - 32) / 4) hj, fun p => rfl⟩
  · refine ⟨classify_outside, classify_protected, fun h hno => ?_, fun h i m v hi honly hm hv => ?_⟩
    · rw [classify_below h]
      refine regionClass_of_none fun e he => ?_
      obtain ⟨i, rfl⟩ := mem_active_iff.mp he
      simpa using mt (covers_iff _ _).mp (hno i)
    · rw [classify_below h]
      refine regionClass_of_covering (mem_active_iff.mpr ⟨i, rfl⟩) ((covers_iff _ _).mpr hi) (fun x hx hc => ?_) hm hv
      obtain ⟨k, rfl⟩ := mem_active_iff.mp hx
      rw [honly k ((covers_iff _ _).mp hc)]

end Sys2Proof.Machine
end

section
/-! The accesses asked for, and what the end of a command leaves of the port and the blocks; the completion of an access
in flight. -/

namespace Sys2Proof.Machine

/-! ### The accesses asked for -/

theorem mem_asked_iff {p : MemPort} {a : Access} : a ∈ p.asked ↔ a ∈ p.waiting ∨ p.inFlight = some a := by
  simp [MemPort.asked]

theorem mem_asked_request {d : Device} {a b : Access} : b ∈ (d.request a).port.asked ↔ b ∈ d.port.asked ∨ b = a := by
  simp only [mem_asked_iff, Device.request_waiting, Device.request_inFlight, List.mem_append, List.mem_singleton]
  tauto

/-- The access just requested is asked for. -/
theorem asked_request (d : Device) (a : Access) : a ∈ (d.request a).port.asked := mem_asked_request.mpr (Or.inr rfl)

/-- A grant moment grants nothing, or one of the requests (R154). -/
theorem grant_cases (d : Device) : d.grant = d ∨ ∃ a ∈ d.port.requests, d.port.state = .active
    ∧ d.port.inFlight = none ∧ d.grant = d.granted a := by
  unfold Device.grant
  split
  · next h =>
    split
    · exact Or.inl rfl
    · next a ha => exact Or.inr ⟨a, bestRequest_mem ha, h.1, h.2, rfl⟩
  · exact Or.inl rfl

theorem mem_requests {p : MemPort} {a : Access} : a ∈ p.requests ↔ a ∈ p.waiting ∨ (a = .refresh ∧ 0 < p.owed) := by
  unfold MemPort.requests
  split
  · next h => simp [h, or_comm]
  · next h => simp [h]

/-- A grant keeps what is asked for, but for the refresh, which the refresh logic asks for by its count (R153, R157). -/
theorem mem_asked_grant {d : Device} {a : Access} (ha : a ≠ .refresh) : a ∈ d.grant.port.asked ↔ a ∈ d.port.asked := by
  rcases grant_cases d with h | ⟨b, hb, _, hf, h⟩
  · rw [h]
  · rw [h]
    simp only [mem_asked_iff, Device.granted, hf, reduceCtorEq, or_false, Option.some.injEq]
    constructor
    · rintro (h | rfl)
      · exact List.mem_of_mem_erase h
      · exact (mem_requests.mp hb).resolve_right fun k => ha k.1
    · intro h
      by_cases hab : b = a
      · exact Or.inr hab
      · exact Or.inl ((List.mem_erase_of_ne (Ne.symm hab)).mpr h)

theorem asked_closeBanks (d : Device) : d.closeBanks.port.asked = d.port.asked := by
  unfold Device.closeBanks
  split <;> rfl

theorem asked_tryEnter (d : Device) : d.tryEnter.port.asked = d.port.asked := by
  unfold Device.tryEnter
  split
  · exact asked_closeBanks _
  · rfl

theorem mem_asked_closeStart {d : Device} {a : Access} (h : a ∈ d.port.asked) : a ∈ d.closeStart.port.asked := by
  unfold Device.closeStart
  split
  · exact mem_asked_request.mpr (Or.inl h)
  · exact h

/-- What is asked for is asked for still at the end of the command. -/
theorem mem_asked_settle {d : Device} {a : Access} (ha : a ≠ .refresh) (h : a ∈ d.port.asked) :
    a ∈ d.settle.port.asked := by
  refine (mem_asked_grant ha).mpr ?_
  rw [asked_tryEnter]
  exact mem_asked_closeStart h

/-! ### The end of a command, block by block -/

theorem grant_portKept (d : Device) : portKept d d.grant := by
  rcases grant_cases d with h | ⟨_, _, _, _, h⟩ <;> rw [h] <;> exact ⟨rfl, rfl, rfl⟩

theorem portKept.trans {d e f : Device} (h : portKept d e) (k : portKept e f) : portKept d f :=
  ⟨k.1.trans h.1, k.2.1.trans h.2.1, k.2.2.trans h.2.2⟩

/-- No closing anchor write is due: the part is not STARTING, or an instance is still listed (R181). -/
theorem closeStart_of_notClosing {d : Device} (h : d.part.state = .starting → d.rollback.list ≠ []) :
    d.closeStart = d := by
  by_cases hs : d.part.state = .starting
  · exact closeStart_of_list (h hs)
  · exact closeStart_of_not_starting hs

/-- Where no closing write is due the end of a command touches the port, and the engine by a grant. -/
theorem settle_frame_of_notClosing {d : Device} (h : d.part.state = .starting → d.rollback.list ≠ []) :
    unchangedBut [.engine, .port] d d.settle := by
  unfold Device.settle
  rw [closeStart_of_notClosing h]
  exact (tryEnter_frame d).comp (grant_frame _) (by decide) (by decide)

/-- With a block at work no self-refresh entry is asked for either: the end of a command is a grant moment. -/
theorem settle_of_busy {d : Device} (h : d.part.state = .starting → d.rollback.list ≠ []) (hb : d.blocksIdle = false) :
    d.settle = d.grant := by
  unfold Device.settle
  rw [closeStart_of_notClosing h, tryEnter_of_busy hb]

theorem blocksIdle_of_engine {d : Device} (h : d.engine ≠ .idle) : d.blocksIdle = false := by
  simp [Device.blocksIdle, h]

/-- Outside GATHER, and with no old-line read to grant in it, a grant leaves the engine as it is (R91). -/
theorem grant_engine {d : Device} (h : ∀ g, d.engine ≠ .gather g) : d.grant.engine = d.engine := by
  rcases grant_cases d with hg | ⟨a, _, _, _, hg⟩
  · rw [hg]
  · rw [hg]
    change d.engine.onGrant a = d.engine
    cases he : d.engine with
    | gather g => exact absurd he (h g)
    | _ => rfl

/-! ### Completions -/

theorem inDram_iff (d : Device) (line : Nat) : d.inDram line = true ↔ line + 32 ≤ capacity d.part.straps :=
  decide_eq_true_iff

/-- A line read in flight inside the DRAM completes with the line's words (R150, R155). -/
theorem readDone_of_inFlight {s : State} {u : ReadUse} {line : Nat} (h : s.inFlight (.read u line) line)
    (k : Device → Nat → List Word → Host.Outcome Device Fault Refusal) :
    s.dev.readDone u k = k s.dev.landed line (s.dev.dram.readLine line) := by
  obtain ⟨hf, hd⟩ := h
  unfold Device.readDone
  rw [hf]
  simp only [if_true, (inDram_iff _ _).mpr hd]

/-- A line write in flight inside the DRAM completes, and its bytes stand (R150, R155). -/
theorem writeDone_of_inFlight {s : State} {u : WriteUse} {w : LineWrite} (h : s.inFlight (.write u w) w.line)
    {p : WriteUse → Bool} (hp : p u = true) (k : Device → Host.Outcome Device Fault Refusal) :
    s.dev.writeDone p k = k { s.dev.landed with dram := s.dev.dram.writeLine w } := by
  obtain ⟨hf, hd⟩ := h
  unfold Device.writeDone
  rw [hf]
  simp only [if_true, hp, (inDram_iff _ _).mpr hd]

theorem writeLine_sameOutside {d e : Device} {w : LineWrite} (h : e.dram = d.dram.writeLine w) :
    sameOutside w.line d e := fun a ha => by
  rw [h]
  exact Memory.read_writeLine_outside _ _ _ ha

end Sys2Proof.Machine
end

section
/-! A READ: its refusals, its waits, and the line reads that serve it (R21-R23, R78). -/

namespace Sys2Proof.Machine

/-! ### The evaluation, check by check -/

theorem badTag_iff (l : BitVec 3) : badTag l = true ↔ 5 ≤ l.toNat := decide_eq_true_iff

theorem badTag_of_lt {l : BitVec 3} (h : l.toNat < 5) : badTag l = false := by
  simpa [badTag] using h

theorem queueNames_iff (d : Device) (line : Nat) : d.queueNames line = true ↔ ∃ e ∈ d.queue, e.line? = some line := by
  simp [Device.queueNames]

theorem queueNames_eq_false_iff (d : Device) (line : Nat) :
    d.queueNames line = false ↔ ∀ x ∈ d.queue, x.line? ≠ some line := by
  simp [Device.queueNames]

theorem foreignTo_iff (e : OwnEntry) (l : BitVec 3) : e.foreignTo l = true ↔ ctxOfLines l ≠ some e.ctx :=
  decide_eq_true_iff

theorem consult_of_journalled {d : Device} {mode : RegionMode} (line : Nat) (h : mode = .journal ∨ mode = .strict) :
    d.consult mode line = d.ownerOf line := by
  rcases h with rfl | rfl <;> rfl

/-- The table is consulted in JOURNAL and STRICT regions only (R67). -/
theorem consult_eq_some {d : Device} {mode : RegionMode} {line : Nat} {e : OwnEntry} (h : d.consult mode line = some e) :
    (mode = .journal ∨ mode = .strict) ∧ d.ownerOf line = some e := by
  cases mode with
  | journal => exact ⟨Or.inl rfl, h⟩
  | strict => exact ⟨Or.inr rfl, h⟩
  | pass => exact absurd h (by simp [Device.consult])
  | readonly => exact absurd h (by simp [Device.consult])

section
variable {d : Device} {c : ReadCycle} {o : BurstOrder} {mode : RegionMode} {view : ReadView}

theorem evalRead_badTag (h : 5 ≤ c.ctxLines.toNat) : d.evalRead c o = d.refuseRead c .badTag :=
  if_pos ((badTag_iff _).mpr h)

theorem evalRead_outside (ht : c.ctxLines.toNat < 5) (h : d.classify c.addr = .outside) :
    d.evalRead c o = d.refuseRead c .outside := by
  simp only [Device.evalRead, badTag_of_lt ht, h, Bool.false_eq_true, if_false]

theorem evalRead_protected (ht : c.ctxLines.toNat < 5) (h : d.classify c.addr = .protectedArea) :
    d.evalRead c o = d.refuseRead c .protectedArea := by
  simp only [Device.evalRead, badTag_of_lt ht, h, Bool.false_eq_true, if_false]

theorem evalRead_named (ht : c.ctxLines.toNat < 5) (h : d.classify c.addr = .region mode view)
    (hq : d.queueNames (lineOf c.addr.toNat) = true) :
    d.evalRead c o = d.waitOn (.read c o) (.readAfterWrite (lineOf c.addr.toNat)) := by
  simp only [Device.evalRead, badTag_of_lt ht, h, hq, Bool.false_eq_true, if_false, if_true]

theorem evalRead_unowned (ht : c.ctxLines.toNat < 5) (h : d.classify c.addr = .region mode view)
    (hq : d.queueNames (lineOf c.addr.toNat) = false) (ho : d.consult mode (lineOf c.addr.toNat) = none) :
    d.evalRead c o = d.serve c o fun i => lineOf c.addr.toNat + 4 * i.val := by
  simp only [Device.evalRead, badTag_of_lt ht, h, hq, ho, Bool.false_eq_true, if_false]

theorem evalRead_owned {e : OwnEntry} (ht : c.ctxLines.toNat < 5) (h : d.classify c.addr = .region mode view)
    (hq : d.queueNames (lineOf c.addr.toNat) = false) (ho : d.consult mode (lineOf c.addr.toNat) = some e) :
    d.evalRead c o =
      if (d.ctx e.ctx).state = .undoing ∨ ((d.ctx e.ctx).state = .closing ∧ e.foreignTo c.ctxLines) then
        d.waitOn (.read c o) (.ownersRelease e.inst)
      else if view = .before ∧ e.foreignTo c.ctxLines ∧ (d.ctx e.ctx).state.live then
        d.serve c o (beforeSource d.part.straps e (lineOf c.addr.toNat))
      else d.serve c o fun i => lineOf c.addr.toNat + 4 * i.val := by
  simp only [Device.evalRead, badTag_of_lt ht, h, hq, ho, Bool.false_eq_true, if_false]

end

/-! ### Refusals and waits -/

/-- A READ whose evaluation leaves the part and the port leaves the device as evaluated. -/
theorem exec_hostRead_unported {c : ReadCycle} {s : State} {e : Device} (he : s.evaluates) (hs : SettledInv s)
    (h : s.dev.arrived.evalRead c s.dev.mgmt.settings.burstOrder = e) (hpart : e.part = s.dev.part)
    (hport : e.port = s.dev.port) : exec (.hostRead c) s = .next (s.withDev e) := by
  subst h
  rw [exec_hostRead, takeCycle_unported he hs hpart hport]
  rfl

/-- Settles O21. -/
theorem readRefused : Obligations.ReadRefused := by
  intro c s he hs
  refine ⟨fun h => ?_, fun ht h => ?_, fun ht h hc => ?_⟩
  · exact exec_hostRead_unported he hs (evalRead_badTag h) rfl rfl
  · exact exec_hostRead_unported he hs (evalRead_outside ht (classify_outside h)) rfl rfl
  · exact exec_hostRead_unported he hs (evalRead_protected ht (classify_protected h hc)) rfl rfl

/-- A cycle that begins to wait as it arrives (R19, R30). -/
theorem withDev_waitOn_arrived {s : State} (he : s.evaluates) (c : Cycle) (w : WaitCond) :
    s.withDev (s.dev.arrived.waitOn c w) = s.waitingOn c w := by
  have hmode : s.dev.arrived.host.mode = .idle := he.2
  unfold Device.waitOn Device.waitTimer
  rw [hmode]
  rfl

/-- Settles O22: the line is named by an entry, or held by an owner on its way out. -/
theorem readWaits : Obligations.ReadWaits := by
  intro c s mode view he hs ht hc
  refine ⟨fun hnamed => ?_, fun e hfree hmode howner hstate => ?_⟩
  · rw [← withDev_waitOn_arrived he]
    exact exec_hostRead_unported he hs (evalRead_named ht hc ((queueNames_iff _ _).mpr hnamed)) rfl rfl
  · have hq : s.dev.arrived.queueNames (lineOf c.addr.toNat) = false := (queueNames_eq_false_iff _ _).mpr hfree
    have howned := evalRead_owned (d := s.dev.arrived) (o := s.dev.mgmt.settings.burstOrder) ht hc hq
      ((consult_of_journalled (d := s.dev.arrived) _ hmode).trans howner)
    have hwaits : (s.dev.arrived.ctx e.ctx).state = .undoing
        ∨ ((s.dev.arrived.ctx e.ctx).state = .closing ∧ e.foreignTo c.ctxLines) :=
      hstate.imp_right fun k => ⟨k.1, (foreignTo_iff _ _).mpr k.2⟩
    rw [if_pos hwaits] at howned
    rw [← withDev_waitOn_arrived he]
    exact exec_hostRead_unported he hs howned rfl rfl

/-! ### The lines to read -/

theorem lineOf_word (a : Nat) (i : Fin 8) : lineOf (lineOf a + 4 * i.val) = lineOf a := by
  have := i.isLt
  unfold lineOf
  omega

theorem eraseDups_of_constant {α : Type} [DecidableEq α] {a : α} {l : List α} (hl : l ≠ []) (h : ∀ x ∈ l, x = a) :
    l.eraseDups = [a] := by
  cases l with
  | nil => exact absurd rfl hl
  | cons b bs =>
    obtain rfl := h b List.mem_cons_self
    have hrest : bs.filter (fun x => !x == b) = [] := by
      simpa using fun x hx => h x (List.mem_cons_of_mem _ hx)
    rw [List.eraseDups_cons, hrest, List.eraseDups_nil]

theorem nodup_eraseDups {α : Type} [DecidableEq α] (l : List α) : l.eraseDups.Nodup := by
  match l with
  | [] => simp
  | a :: as =>
    rw [List.eraseDups_cons, List.nodup_cons]
    exact ⟨by simp [List.mem_eraseDups], nodup_eraseDups _⟩
  termination_by l.length
  decreasing_by exact Nat.lt_succ_of_le (List.length_filter_le _ _)

theorem mem_linesToRead {line l : Nat} {sources : List Nat} :
    l ∈ linesToRead line sources ↔ ∃ a ∈ sources, l = lineOf a := by
  have hmem : l ∈ (sources.map lineOf).eraseDups ↔ ∃ a ∈ sources, l = lineOf a := by
    simp [List.mem_eraseDups, eq_comm]
  unfold linesToRead
  simp only
  split
  · next h =>
    rw [← hmem, List.mem_cons]
    by_cases hl : l = line
    · subst hl
      simp [h]
    · simp [hl, List.mem_erase_of_ne hl]
  · exact hmem

theorem linesToRead_nodup (line : Nat) (sources : List Nat) : (linesToRead line sources).Nodup := by
  have hn := nodup_eraseDups (sources.map lineOf)
  unfold linesToRead
  simp only
  split
  · exact List.nodup_cons.mpr ⟨hn.not_mem_erase, hn.erase _⟩
  · exact hn

theorem linesToRead_of_constant {line : Nat} {sources : List Nat} (hn : sources ≠ [])
    (h : ∀ a ∈ sources, lineOf a = line) : linesToRead line sources = [line] := by
  have hd : (sources.map lineOf).eraseDups = [line] :=
    eraseDups_of_constant (by simpa using hn) fun x hx => by
      obtain ⟨a, ha, rfl⟩ := List.mem_map.mp hx
      exact h a ha
  unfold linesToRead
  simp only [hd, List.mem_singleton, if_true, List.erase_cons_head]

theorem beats_pos (b : BurstLen) : 0 < b.beats := by cases b <;> decide

theorem beatWords_ne_nil (a : Word) (b : BurstLen) (o : BurstOrder) : beatWords a b o ≠ [] := by
  have := beats_pos b
  simp [beatWords]
  omega

/-- The words of a burst in the order of the line. -/
def inLineOrder (ws : List (Fin 8)) : List (Fin 8) := (List.finRange 8).filter fun i => decide (i ∈ ws)

theorem mem_inLineOrder {ws : List (Fin 8)} {i : Fin 8} : i ∈ inLineOrder ws ↔ i ∈ ws := by
  simp [inLineOrder]

theorem inLineOrder_ne_nil {ws : List (Fin 8)} (h : ws ≠ []) : inLineOrder ws ≠ [] := by
  obtain ⟨i, hi⟩ := List.exists_mem_of_ne_nil ws h
  exact List.ne_nil_of_mem (mem_inLineOrder.mpr hi)

/-- The reading that serves a READ as it arrives (R23). -/
def readingOf (c : ReadCycle) (o : BurstOrder) (source : Fin 8 → Nat) : Reading :=
  { cycle := c, timer := none, sources := (beatWords c.addr c.blen o).map source
    todo := linesToRead (lineOf c.addr.toNat) ((inLineOrder (beatWords c.addr c.blen o)).map source), got := [] }

/-- The device with a READ in READING whose first line is requested. -/
def Device.readingFrom (d : Device) (r : Reading) (first : Nat) : Device :=
  { d with
    host := { d.host with answer := none, mode := .reading r }
    port := { d.port with waiting := d.port.waiting ++ [.read .host first] } }

/-- A READ served as it arrives asks for the first of its lines. -/
theorem exec_hostRead_served {c : ReadCycle} {s : State} {source : Fin 8 → Nat} {first : Nat} {rest : List Nat}
    (he : s.evaluates)
    (h : s.dev.arrived.evalRead c s.dev.mgmt.settings.burstOrder
      = s.dev.arrived.serve c s.dev.mgmt.settings.burstOrder source)
    (htodo : (readingOf c s.dev.mgmt.settings.burstOrder source).todo = first :: rest) :
    exec (.hostRead c) s = .next (s.withDev
      (s.dev.readingFrom (readingOf c s.dev.mgmt.settings.burstOrder source) first).grant) := by
  have hmode : s.dev.arrived.host.mode = .idle := he.2
  have hserve : s.dev.arrived.serve c s.dev.mgmt.settings.burstOrder source
      = s.dev.readingFrom (readingOf c s.dev.mgmt.settings.burstOrder source) first := by
    unfold Device.serve
    rw [hmode]
    change Device.requestHostLine _ (readingOf c s.dev.mgmt.settings.burstOrder source).todo = _
    rw [htodo]
    rfl
  rw [exec_hostRead, takeCycle_granted he]
  · change Host.Outcome.next (s.withDev (s.dev.arrived.evalRead c s.dev.mgmt.settings.burstOrder).grant) = _
    rw [h, hserve]
  · change (s.dev.arrived.evalRead c s.dev.mgmt.settings.burstOrder).part = _
    rw [h, hserve]
    rfl

/-- Settles O23: every word lies in the addressed line, so that is the only line read. -/
theorem readServedFromMemory : Obligations.ReadServedFromMemory := by
  intro c s mode view he hs ht hc line hfree howner
  have hq : s.dev.arrived.queueNames line = false := (queueNames_eq_false_iff _ _).mpr hfree
  have hserve : s.dev.arrived.evalRead c s.dev.mgmt.settings.burstOrder
      = s.dev.arrived.serve c s.dev.mgmt.settings.burstOrder fun i => line + 4 * i.val := by
    cases ho : s.dev.arrived.consult mode line with
    | none => exact evalRead_unowned ht hc hq ho
    | some e =>
      obtain ⟨hmode, hown⟩ := consult_eq_some ho
      obtain ⟨hundo, hforeign⟩ := howner e hmode hown
      have hplain := evalRead_owned (d := s.dev.arrived) (o := s.dev.mgmt.settings.burstOrder) ht hc hq ho
      rw [if_neg, if_neg] at hplain
      · exact hplain
      · rintro ⟨hv, hf, hl⟩
        obtain ⟨h1, h2⟩ := (hforeign ((foreignTo_iff _ _).mp hf)).2 hv
        exact ((live_iff _).mp hl).elim h1 h2
      · rintro (h | ⟨h, hf⟩)
        · exact hundo h
        · exact (hforeign ((foreignTo_iff _ _).mp hf)).1 h
  have htodo : (readingOf c s.dev.mgmt.settings.burstOrder fun i => line + 4 * i.val).todo = [line] := by
    refine linesToRead_of_constant ?_ fun a ha => ?_
    · simpa using inLineOrder_ne_nil (beatWords_ne_nil _ _ _)
    · obtain ⟨i, _, rfl⟩ := List.mem_map.mp ha
      exact lineOf_word _ i
  rw [exec_hostRead_served he hserve htodo]
  unfold Device.readingFrom
  rw [← htodo]
  rfl

/-- Settles O24: the sources follow the locators, and the lines to read follow the sources. -/
theorem readServedFromImages : Obligations.ReadServedFromImages := by
  intro c s mode e he hs ht hc hmode line order hfree howner hforeign hlive hpending
  have hq : s.dev.arrived.queueNames line = false := (queueNames_eq_false_iff _ _).mpr hfree
  have hserve : s.dev.arrived.evalRead c order
      = s.dev.arrived.serve c order (beforeSource s.dev.part.straps e line) := by
    have howned := evalRead_owned (d := s.dev.arrived) (o := order) ht hc hq
      ((consult_of_journalled (d := s.dev.arrived) _ hmode).trans howner)
    rw [if_neg, if_pos] at howned
    · exact howned
    · exact ⟨rfl, (foreignTo_iff _ _).mpr hforeign, (live_iff _).mpr hlive⟩
    · have hctx : (s.dev.arrived.ctx e.ctx).state = (s.dev.ctx e.ctx).state := rfl
      rw [hctx]
      rcases hlive with h | h <;> simp [h]
  obtain ⟨first, rest, htodo⟩ : ∃ first rest,
      (readingOf c order (beforeSource s.dev.part.straps e line)).todo = first :: rest := by
    obtain ⟨i, hi⟩ := List.exists_mem_of_ne_nil _ (beatWords_ne_nil c.addr c.blen order)
    refine List.exists_cons_of_ne_nil (List.ne_nil_of_mem (a := lineOf (beforeSource s.dev.part.straps e line i))
      (mem_linesToRead.mpr ⟨_, List.mem_map_of_mem (mem_inLineOrder.mpr hi), rfl⟩))
  refine ⟨_, first, rest, exec_hostRead_served he hserve htodo, rfl, rfl, rfl, htodo, linesToRead_nodup _ _,
    by simp [readingOf, beatWords], fun k hk a ha => ?_, fun l => ?_⟩
  · have hsource : beforeSource s.dev.part.straps e line (beatWord c.addr c.blen order k) = a := by
      simpa [readingOf, beatWords, hk] using ha
    subst hsource
    unfold beforeSource
    exact ⟨fun p hp => by rw [hp]; rfl, fun hn => by rw [hn]⟩
  · refine mem_linesToRead.trans ⟨?_, ?_⟩
    · rintro ⟨a, ha, hl⟩
      obtain ⟨i, hi, rfl⟩ := List.mem_map.mp ha
      exact ⟨_, List.mem_map_of_mem (mem_inLineOrder.mp hi), hl⟩
    · rintro ⟨a, ha, hl⟩
      obtain ⟨i, hi, rfl⟩ := List.mem_map.mp ha
      exact ⟨_, List.mem_map_of_mem (mem_inLineOrder.mpr hi), hl⟩

/-! ### The completion of a line read -/

theorem readLine_getD (m : Memory) (line : Nat) (i : Fin 8) :
    (m.readLine line).getD i.val 0 = m.readWord (line + 4 * i.val) := by
  simp [Memory.readLine]

theorem wordPos_val (a : Nat) : (wordPos a).val = a / 4 % 8 := rfl

/-- The word of an address in the line just read (R23). -/
theorem wordRead_of_line {m : Memory} {line a : Nat} (got : List (Nat × List Word)) (hl : lineOf a = line)
    (ha : a % 4 = 0) : wordRead ((line, m.readLine line) :: got) a = m.readWord a := by
  have haddr : line + 4 * (wordPos a).val = a := by
    rw [wordPos_val, ← hl]
    unfold lineOf
    omega
  unfold wordRead
  rw [hl, List.lookup_cons_self, Option.getD_some, readLine_getD, haddr]

/-- The word of an address in a line read before. -/
theorem wordRead_of_got {line a : Nat} {now ws : List Word} {got : List (Nat × List Word)} (hl : lineOf a ≠ line)
    (hg : got.lookup (lineOf a) = some ws) : wordRead ((line, now) :: got) a = ws.getD (a / 4 % 8) 0 := by
  unfold wordRead
  rw [List.lookup_cons, beq_eq_false_iff_ne.mpr hl]
  simp [hg, wordPos_val]

/-- Settles O25: with a line left to read the next is requested, else the words are picked from the lines got. -/
theorem readAccessCompletes : Obligations.ReadAccessCompletes := by
  intro s r line rest hfly hstate hmode htodo
  have hclosing : ∀ d : Device, d.part = s.dev.part → d.part.state = .starting → d.rollback.list ≠ [] := fun d hd k => by
    rw [hd] at k
    rcases hstate with h | h <;> exact absurd (h.symm.trans k) (by decide)
  have hdone : exec .hostReadAccessComplete s
      = s.onDevice (s.dev.landed.hostLineRead line (s.dev.dram.readLine line)) :=
    congrArg s.onDevice (readDone_of_inFlight hfly fun d l ws => d.hostLineRead l ws)
  have hreading : s.dev.landed.host.mode = .reading r := hmode
  constructor
  · intro hlast
    let e := s.dev.landed.answer .okay (r.sources.map (wordRead ((line, s.dev.dram.readLine line) :: r.got)))
    have hend : s.dev.landed.hostLineRead line (s.dev.dram.readLine line) = .next e.settle := by
      unfold Device.hostLineRead
      simp only [hreading, htodo, hlast, List.drop_succ_cons, List.drop_nil]
      rfl
    have hsettle : unchangedBut [.engine, .port] e e.settle := settle_frame_of_notClosing (hclosing e rfl)
    have hframe : unchangedBut [.port, .host] s.dev e := (landed_frame s.dev).comp (answer_frame _ _ _) (by decide) (by decide)
    have hhost : e.settle.host = e.host := hsettle .host (by decide)
    refine ⟨e.settle, by rw [hdone, hend]; rfl, hframe.comp hsettle (by decide) (by decide), by rw [hhost]; rfl, ?_⟩
    refine ⟨_, by rw [hhost]; rfl, by simp, fun k a ha => ⟨fun hl h4 => ?_, fun ws hl hg => ?_⟩⟩
    · rw [List.getElem?_map, ha, Option.map_some, wordRead_of_line _ hl h4]
    · rw [List.getElem?_map, ha, Option.map_some, wordRead_of_got hl hg]
  · intro next more hrest
    let r1 : Reading := { r with todo := next :: more, got := (line, s.dev.dram.readLine line) :: r.got }
    let e := Device.request { s.dev.landed with host := { s.dev.host with mode := .reading r1 } } (.read .host next)
    have hend : s.dev.landed.hostLineRead line (s.dev.dram.readLine line) = .next e.settle := by
      unfold Device.hostLineRead
      simp only [hreading, htodo, hrest, List.drop_succ_cons, List.drop_zero]
      rfl
    have hsettle : unchangedBut [.engine, .port] e e.settle := settle_frame_of_notClosing (hclosing e rfl)
    have hframe : unchangedBut [.host, .port] s.dev e :=
      (((landed_frame s.dev).comp (host_frame _ _) (by decide) (by decide) : unchangedBut [.host, .port] s.dev _)).comp
        (request_frame _ _) (by decide) (by decide)
    have hhost : e.settle.host = e.host := hsettle .host (by decide)
    refine ⟨e.settle, by rw [hdone, hend]; rfl, hframe.comp hsettle (by decide) (by decide), ?_, ?_⟩
    · rw [hhost, hrest]
      rfl
    · exact mem_asked_settle (by simp) (asked_request _ _)

end Sys2Proof.Machine
end

section
/-! The words of a burst in beat order (R16, R17), and the written words of a WRITE by position (R84). -/

namespace Sys2Proof.Machine

/-! ### Beats -/

/-- The address of word `p` of the first line. -/
def wordAddr (p : Fin 8) : Word := BitVec.ofNat 32 (4 * p.val)

theorem wordAddr_toNat (p : Fin 8) : (wordAddr p).toNat = 4 * p.val := by
  have := p.isLt
  simp only [wordAddr, BitVec.toNat_ofNat]
  omega

/-- The block and the start word within it depend on the addressed word's place in its line alone. -/
theorem blockBase_wordAddr (addr : Word) (b : BurstLen) :
    blockBase addr b = blockBase (wordAddr (wordPos addr.toNat)) b := by
  cases b <;> simp only [blockBase, wordAddr_toNat, wordPos_val] <;> omega

theorem startWord_wordAddr (addr : Word) (b : BurstLen) :
    startWord addr b = startWord (wordAddr (wordPos addr.toNat)) b := by
  cases b <;> simp only [startWord, wordAddr_toNat, wordPos_val, BurstLen.beats] <;> omega

theorem beatWord_wordAddr (addr : Word) (b : BurstLen) (o : BurstOrder) (k : Nat) :
    beatWord addr b o k = beatWord (wordAddr (wordPos addr.toNat)) b o k := by
  unfold beatWord
  rw [← blockBase_wordAddr, ← startWord_wordAddr]

theorem beatWords_wordAddr (addr : Word) (b : BurstLen) (o : BurstOrder) :
    beatWords addr b o = beatWords (wordAddr (wordPos addr.toNat)) b o := by
  unfold beatWords
  exact List.map_congr_left fun k _ => beatWord_wordAddr addr b o k

/-- The word of each beat, for the eight places of the addressed word. -/
theorem beatWord_of_place (p : Fin 8) (b : BurstLen) : ∀ k, k < b.beats →
    (beatWord (wordAddr p) b .sequential k).val
      = blockBase (wordAddr p) b + (startWord (wordAddr p) b + k) % b.beats
    ∧ (beatWord (wordAddr p) b .interleaved k).val
      = blockBase (wordAddr p) b + (startWord (wordAddr p) b ^^^ k) := by
  revert p
  cases b <;> decide

/-- Each word of the block has one beat, for the eight places of the addressed word. -/
theorem beatWords_of_place (p : Fin 8) (b : BurstLen) (o : BurstOrder) : (beatWords (wordAddr p) b o).Nodup
    ∧ ∀ i : Fin 8, i ∈ beatWords (wordAddr p) b o ↔
      blockBase (wordAddr p) b ≤ i.val ∧ i.val < blockBase (wordAddr p) b + b.beats := by
  revert p
  cases b <;> cases o <;> decide

theorem beatWords_nodup (addr : Word) (b : BurstLen) (o : BurstOrder) : (beatWords addr b o).Nodup := by
  rw [beatWords_wordAddr]
  exact (beatWords_of_place _ b o).1

theorem beatWords_length (addr : Word) (b : BurstLen) (o : BurstOrder) : (beatWords addr b o).length = b.beats := by
  simp [beatWords]

/-! ### Written words -/

theorem mem_insertWord {w x : WordWrite} {l : List WordWrite} : x ∈ insertWord w l ↔ x = w ∨ x ∈ l := by
  induction l with
  | nil => simp [insertWord]
  | cons y ys ih =>
    unfold insertWord
    split
    · simp
    · simp only [List.mem_cons, ih]
      tauto

/-- A word at a new position goes to its place in the order. -/
theorem insertWord_sorted {w : WordWrite} {l : List WordWrite} (hl : (l.map (·.pos)).Pairwise (· < ·))
    (hw : ∀ x ∈ l, x.pos ≠ w.pos) : ((insertWord w l).map (·.pos)).Pairwise (· < ·) := by
  rw [List.pairwise_map] at hl ⊢
  induction l with
  | nil => simp [insertWord]
  | cons y ys ih =>
    obtain ⟨hy, hys⟩ := List.pairwise_cons.mp hl
    have hne := hw y List.mem_cons_self
    unfold insertWord
    split
    · next hlt =>
      refine List.pairwise_cons.mpr ⟨fun x hx => ?_, hl⟩
      rcases List.mem_cons.mp hx with rfl | hx
      · exact hlt
      · exact hlt.trans (hy x hx)
    · next hnlt =>
      have hlt : y.pos < w.pos := lt_of_le_of_ne (not_lt.mp hnlt) hne
      refine List.pairwise_cons.mpr ⟨fun x hx => ?_, ih hys fun x hx => hw x (List.mem_cons_of_mem _ hx)⟩
      rcases mem_insertWord.mp hx with rfl | hx
      · exact hlt
      · exact hy x hx

/-- The words of a burst put in their places. -/
def placedWords (ps : List (Fin 8 × Word)) : List WordWrite :=
  ps.foldr (fun p acc => insertWord ⟨p.1, 15, p.2⟩ acc) []

theorem mem_placedWords {ps : List (Fin 8 × Word)} {x : WordWrite} :
    x ∈ placedWords ps ↔ ∃ p ∈ ps, x = ⟨p.1, 15, p.2⟩ := by
  induction ps with
  | nil => simp [placedWords]
  | cons p ps ih =>
    change x ∈ insertWord ⟨p.1, 15, p.2⟩ (placedWords ps) ↔ _
    rw [mem_insertWord, ih]
    simp

theorem placedWords_sorted {ps : List (Fin 8 × Word)} (h : (ps.map (·.1)).Nodup) :
    ((placedWords ps).map (·.pos)).Pairwise (· < ·) := by
  induction ps with
  | nil => simp [placedWords]
  | cons p ps ih =>
    obtain ⟨hp, hps⟩ := List.nodup_cons.mp h
    refine insertWord_sorted (ih hps) fun x hx hpos => hp ?_
    obtain ⟨q, hq, rfl⟩ := mem_placedWords.mp hx
    exact List.mem_map.mpr ⟨q, hq, hpos⟩

theorem writtenWords_of_burst {c : WriteCycle} (o : BurstOrder) (h : c.blen ≠ .one) :
    writtenWords c o = placedWords ((beatWords c.addr c.blen o).zip c.data) := by
  unfold writtenWords
  split
  · next hb => exact absurd hb h
  · rfl

theorem writtenWords_of_single {c : WriteCycle} (o : BurstOrder) (h : c.blen = .one) :
    writtenWords c o = if c.lanes = 0 then [] else (c.data.take 1).map fun w => ⟨wordPos c.addr.toNat, c.lanes, w⟩ := by
  unfold writtenWords
  rw [h]

/-- The beats of a burst with their data. -/
theorem mem_beats_zip {c : WriteCycle} {o : BurstOrder} (hlen : c.data.length = c.blen.beats) {p : Fin 8 × Word} :
    p ∈ (beatWords c.addr c.blen o).zip c.data ↔
      ∃ k, k < c.blen.beats ∧ p = (beatWord c.addr c.blen o k, c.data.getD k 0) := by
  rw [List.mem_iff_getElem]
  constructor
  · rintro ⟨k, hk, rfl⟩
    have hk' : k < c.blen.beats := by simpa [beatWords, hlen] using hk
    exact ⟨k, hk', by simp [beatWords, List.getD_eq_getElem?_getD, hlen, hk']⟩
  · rintro ⟨k, hk, rfl⟩
    exact ⟨k, by simpa [beatWords, hlen] using hk, by simp [beatWords, List.getD_eq_getElem?_getD, hlen, hk]⟩

/-- Settles O20: the beats place by place, and the written words as an insertion sort leaves them. -/
theorem beatsFollowBurstOrder : Obligations.BeatsFollowBurstOrder := by
  refine ⟨fun addr => ⟨rfl, Nat.mul_comm _ _, rfl⟩, rfl, rfl, rfl, fun _ => ⟨rfl, rfl⟩, fun _ _ => rfl,
    fun addr b => ⟨fun k hk => ?_, fun o => ⟨beatWords_nodup addr b o, fun i => ?_⟩⟩, fun c o hlen => ⟨?_, ?_, fun h => ?_⟩⟩
  · have hstart : addr.toNat / 4 % b.beats = startWord addr b := rfl
    rw [hstart, beatWord_wordAddr addr b .sequential, beatWord_wordAddr addr b .interleaved, blockBase_wordAddr addr,
      startWord_wordAddr addr]
    exact beatWord_of_place _ b k hk
  · rw [beatWords_wordAddr, blockBase_wordAddr]
    exact (beatWords_of_place _ b o).2 i
  · intro h hl
    rw [writtenWords_of_single o h, if_pos hl]
  · intro h hl v hv
    rw [writtenWords_of_single o h, if_neg hl, hv]
    rfl
  · rw [writtenWords_of_burst o h]
    refine ⟨placedWords_sorted ?_, fun x => ?_⟩
    · rw [List.map_fst_zip (by rw [beatWords_length, hlen])]
      exact beatWords_nodup _ _ _
    · rw [mem_placedWords]
      constructor
      · rintro ⟨p, hp, rfl⟩
        obtain ⟨k, hk, rfl⟩ := (mem_beats_zip hlen).mp hp
        exact ⟨k, hk, rfl⟩
      · rintro ⟨k, hk, rfl⟩
        exact ⟨_, (mem_beats_zip hlen).mpr ⟨k, hk, rfl⟩, rfl⟩

end Sys2Proof.Machine
end

section
/-! What the journal controller's and the engines' operations ask of the memory port, and what they make of the causes:
they add requests and change nothing else of the port. -/

namespace Sys2Proof.Machine

/-! ### Requests are added -/

/-- Requests were added behind those that wait, and the port stands else. -/
def PortGrows (d e : Device) : Prop := ∃ l, e.port = { d.port with waiting := d.port.waiting ++ l }

namespace PortGrows

variable {d e f : Device}

theorem of_port (h : e.port = d.port) : PortGrows d e := ⟨[], by rw [h, List.append_nil]⟩

theorem refl (d : Device) : PortGrows d d := of_port rfl

theorem trans (h : PortGrows d e) (k : PortGrows e f) : PortGrows d f := by
  obtain ⟨l, hl⟩ := h
  obtain ⟨m, hm⟩ := k
  exact ⟨l ++ m, by rw [hm, hl, ← List.append_assoc]⟩

theorem request (d : Device) (a : Access) : PortGrows d (d.request a) := ⟨[a], rfl⟩

theorem then_port (h : PortGrows d e) (k : f.port = e.port) : PortGrows d f := h.trans (of_port k)

theorem of_start (h : PortGrows e f) (k : e.port = d.port) : PortGrows d f := (of_port k).trans h

theorem kept (h : PortGrows d e) : portKept d e := by
  obtain ⟨l, hl⟩ := h
  rw [portKept, hl]
  exact ⟨rfl, rfl, rfl⟩

theorem inFlight (h : PortGrows d e) : e.port.inFlight = d.port.inFlight := by
  obtain ⟨l, hl⟩ := h
  rw [hl]

theorem asked {a : Access} (h : PortGrows d e) (ha : a ∈ d.port.asked) : a ∈ e.port.asked := by
  obtain ⟨l, hl⟩ := h
  rw [mem_asked_iff] at ha ⊢
  rw [hl]
  exact ha.imp_left (List.mem_append_left _)

theorem eq_waiting (h : PortGrows d e) : e.port = { d.port with waiting := e.port.waiting } := by
  obtain ⟨l, hl⟩ := h
  rw [hl]

end PortGrows

theorem requestAppendWrite_grows (d : Device) (a : Append) : PortGrows d (d.requestAppendWrite a) := by
  unfold Device.requestAppendWrite
  split
  · exact .refl _
  · exact .request _ _

theorem placeRecord_grows (d : Device) (who : Appender) (r : RecordReq) (p : Nat) :
    PortGrows d (d.placeRecord who r p) := (requestAppendWrite_grows _ _).of_start rfl

theorem placePad_grows (d : Device) (who : Appender) (r : RecordReq) (p : Nat) :
    PortGrows d (d.placePad who r p) := (requestAppendWrite_grows _ _).of_start rfl

theorem skipRingEnd_port (d : Device) (r : Nat) : (d.skipRingEnd r).port = d.port :=
  skipRingEnd_frame d r .port (by decide)

theorem beginAppend_grows (d : Device) (who : Appender) (req : RecordReq) : PortGrows d (d.beginAppend who req) := by
  unfold Device.beginAppend
  simp only
  split
  · exact placeRecord_grows _ _ _ _
  · split
    · exact placePad_grows _ _ _ _
    · exact (placeRecord_grows _ _ _ _).of_start (skipRingEnd_port _ _)

theorem requestAppend_grows (d : Device) (who : Appender) (req : RecordReq) : PortGrows d (d.requestAppend who req) := by
  unfold Device.requestAppend
  split
  · exact beginAppend_grows _ _ _
  · exact .of_port rfl

/-- Behind an append in hand an appender only waits (R107). -/
theorem requestAppend_port {d : Device} (who : Appender) (req : RecordReq) (h : d.journal.append ≠ none) :
    (d.requestAppend who req).port = d.port := by
  unfold Device.requestAppend
  split
  · next hn => exact absurd hn h
  · rfl

theorem issueAnchor_grows (d : Device) (w : AnchorUse) : PortGrows d (d.issueAnchor w) := (PortGrows.request _ _).of_start rfl

theorem requestForcedAnchor_grows (d : Device) : PortGrows d d.requestForcedAnchor := by
  unfold Device.requestForcedAnchor
  split
  · exact issueAnchor_grows _ _
  · exact .of_port rfl

theorem passStop_grows (d : Device) (p : Pass) : PortGrows d (d.passStop p) := by
  unfold Device.passStop
  extract_lets j rises debt d1
  split
  · exact (requestForcedAnchor_grows _).of_start rfl
  · split
    · exact (issueAnchor_grows _ _).of_start rfl
    · exact .of_port rfl

theorem passRun_grows (d : Device) (p : Pass) : PortGrows d (d.passRun p) := by
  unfold Device.passRun
  dsimp only
  split
  · exact (passStop_grows _ _).of_start rfl
  · split
    · split
      · exact (passStop_grows _ _).of_start rfl
      · exact (PortGrows.request _ _).of_start rfl
    · exact (PortGrows.request _ _).of_start rfl

theorem beginPass_grows (d : Device) : PortGrows d d.beginPass := passRun_grows _ _

theorem requestPass_grows (d : Device) : PortGrows d d.requestPass := by
  unfold Device.requestPass
  split
  · split
    · exact beginPass_grows _
    · exact .of_port rfl
  · exact .refl _

theorem requestReclaim_grows (d : Device) : PortGrows d d.requestReclaim := by
  unfold Device.requestReclaim
  split
  · exact .refl _
  · exact .of_port rfl
  · split
    · exact (beginPass_grows _).of_start rfl
    · exact .of_port rfl

theorem endReclaim_grows (d : Device) : PortGrows d d.endReclaim := by
  unfold Device.endReclaim
  dsimp only
  split
  · exact (requestReclaim_grows _).of_start rfl
  · exact .of_port rfl

theorem anchorNext_grows (d : Device) (w : AnchorWrite) : PortGrows d (d.anchorNext w) := by
  unfold Device.anchorNext
  dsimp only
  split
  · exact issueAnchor_grows _ _
  · split
    · split
      · exact (endReclaim_grows _).of_start rfl
      · exact (issueAnchor_grows _ _).of_start rfl
    · split
      · exact endReclaim_grows _
      · exact .refl _

theorem requestData_grows (d : Device) : PortGrows d d.requestData := by
  unfold Device.requestData
  split
  · exact .request _ _
  · exact .refl _

theorem engineNext_grows (d : Device) : PortGrows d d.engineNext := by
  unfold Device.engineNext
  split
  · exact .of_port rfl
  · exact (requestData_grows _).of_start rfl
  · exact (requestData_grows _).of_start rfl
  · exact (requestAppend_grows _ _ _).of_start rfl
  · exact (requestAppend_grows _ _ _).of_start rfl
  · exact (PortGrows.request _ _).of_start rfl

theorem select_grows (d : Device) : PortGrows d d.select := by
  unfold Device.select
  split
  · split
    · exact .refl _
    · exact (PortGrows.request _ _).of_start rfl
  · exact .refl _

theorem appendToList_grows (d : Device) (c : Ctx) (o : FinishOutcome) : PortGrows d (d.appendToList c o) :=
  (select_grows _).of_start rfl

theorem undo_grows (d : Device) (c : Ctx) (o : FinishOutcome) : PortGrows d (d.undo c o) :=
  (appendToList_grows _ c o).of_start rfl

/-! ### Free space and the low-water cause -/

/-- Free space looks at the head, the anchored tail, the reservation and the ring alone (R112). -/
theorem free_congr {d e : Device} (hp : e.part = d.part) (hh : e.journal.head = d.journal.head)
    (ha : e.journal.anchoredTail = d.journal.anchoredTail) (hr : e.journal.reserved = d.journal.reserved) :
    e.free = d.free := by
  simp only [Device.free, Device.used, Device.ring, hp, hh, ha, hr]

/-- Where free space does not fall the cause is not raised (R126). -/
theorem lowCauses_of_le {d : Device} {j k : Journal} (c : BitVec 7)
    (h : Device.free { d with journal := j } ≤ Device.free { d with journal := k }) : d.lowCauses j k c = c := by
  unfold Device.lowCauses
  exact if_neg fun ⟨_, h1, h2⟩ => absurd (h1.trans h) (not_le.mpr h2)

theorem lowCauses_of_same {d : Device} {j k : Journal} (c : BitVec 7) (hh : k.head = j.head)
    (ha : k.anchoredTail = j.anchoredTail) (hr : k.reserved = j.reserved) : d.lowCauses j k c = c :=
  lowCauses_of_le c (le_of_eq (free_congr rfl hh.symm ha.symm hr.symm))

/-- The cause follows the journal controller's counts, before and after, in a block of the same ring and settings. -/
theorem lowCauses_congr {d e : Device} {j j' k k' : Journal} (c : BitVec 7) (hp : e.part = d.part)
    (hm : e.mgmt.settings = d.mgmt.settings) (hc : j'.cond = j.cond)
    (hj : j'.head = j.head ∧ j'.anchoredTail = j.anchoredTail ∧ j'.reserved = j.reserved)
    (hk : k'.head = k.head ∧ k'.anchoredTail = k.anchoredTail ∧ k'.reserved = k.reserved) :
    e.lowCauses j' k' c = d.lowCauses j k c := by
  have fj : Device.free { e with journal := j' } = Device.free { d with journal := j } :=
    free_congr hp hj.1 hj.2.1 hj.2.2
  have fk : Device.free { e with journal := k' } = Device.free { d with journal := k } :=
    free_congr hp hk.1 hk.2.1 hk.2.2
  have hring : e.ring = d.ring := by
    unfold Device.ring
    rw [hp]
  simp only [Device.lowCauses, fj, fk, hc, hm, hring]

/-- The management port with other causes. -/
def Management.withCauses (m : Management) (c : BitVec 7) : Management := { m with causes := c }

@[simp] theorem Management.withCauses_causes (m : Management) (c : BitVec 7) : (m.withCauses c).causes = c := rfl
@[simp] theorem Management.withCauses_settings (m : Management) (c : BitVec 7) :
    (m.withCauses c).settings = m.settings := rfl
@[simp] theorem Management.withCauses_withCauses (m : Management) (b c : BitVec 7) :
    (m.withCauses b).withCauses c = m.withCauses c := rfl
@[simp] theorem Management.withCauses_self (m : Management) : m.withCauses m.causes = m := rfl

/-- The note of a change of free space raises the cause that the change calls for (R126). -/
theorem noteFree_mgmt {d : Device} {k : Journal} (hc : k.cond = d.journal.cond) :
    (Device.noteFree { d with journal := k } d.free).mgmt
      = d.mgmt.withCauses (d.lowCauses d.journal k d.mgmt.causes) := by
  have hcond : (Device.journal { d with journal := k }).cond = d.journal.cond := hc
  by_cases h : d.journal.cond = .valid ∧ (d.lowThreshold : Int) ≤ d.free
      ∧ Device.free { d with journal := k } < d.lowThreshold
  · have hnote : Device.noteFree { d with journal := k } d.free = Device.raise { d with journal := k } .journalLow :=
      if_pos ⟨hcond.trans h.1, h.2⟩
    have hlow : d.lowCauses d.journal k d.mgmt.causes = d.mgmt.causes ||| 4#7 := if_pos h
    rw [hnote, hlow]
    exact rfl
  · have hnote : Device.noteFree { d with journal := k } d.free = { d with journal := k } :=
      if_neg fun x => h ⟨hcond.symm.trans x.1, x.2⟩
    have hlow : d.lowCauses d.journal k d.mgmt.causes = d.mgmt.causes := if_neg h
    rw [hnote, hlow, Management.withCauses_self]

theorem reserve_mgmt (d : Device) (n : Nat) : (d.reserve n).mgmt = d.mgmt.withCauses
    (d.lowCauses d.journal { d.journal with reserved := d.journal.reserved + n } d.mgmt.causes) := noteFree_mgmt rfl

theorem reserve_journal (d : Device) (n : Nat) :
    (d.reserve n).journal = { d.journal with reserved := d.journal.reserved + n } := noteFree_journal _ _

theorem requestAppendWrite_mgmt (d : Device) (a : Append) : (d.requestAppendWrite a).mgmt = d.mgmt :=
  requestAppendWrite_frame d a .mgmt (by decide)

theorem skipRingEnd_mgmt (d : Device) (r : Nat) : (d.skipRingEnd r).mgmt = d.mgmt.withCauses
    (d.lowCauses d.journal { d.journal with
      head := 0, liveTail := if d.journal.liveTail = d.journal.head then 0 else d.journal.liveTail, endGap := r }
      d.mgmt.causes) := noteFree_mgmt (d := d) rfl

/-- The append that begins raises the cause by a skip only: nothing else of it moves the head (R108, R126). -/
theorem beginAppend_mgmt (d : Device) (who : Appender) (req : RecordReq) : (d.beginAppend who req).mgmt
    = d.mgmt.withCauses (d.lowCauses d.journal (d.placedJournal who req) d.mgmt.causes) := by
  have hl : Config.headerLength = 6 := rfl
  by_cases h6 : 6 ≤ d.ring - d.journal.head
  · have hplaced : d.placedJournal who req = { d.journal with append := some (d.placedAppend who req) } := if_pos h6
    have hsame : (d.beginAppend who req).mgmt = d.mgmt := by
      unfold Device.beginAppend
      dsimp only
      split
      · exact requestAppendWrite_mgmt _ _
      · rw [if_pos (by omega)]
        exact requestAppendWrite_mgmt _ _
    have hcauses : d.lowCauses d.journal (d.placedJournal who req) d.mgmt.causes = d.mgmt.causes := by
      rw [hplaced]
      exact lowCauses_of_same _ rfl rfl rfl
    rw [hsame, hcauses, Management.withCauses_self]
  · have hbegin : d.beginAppend who req = (d.skipRingEnd (d.ring - d.journal.head)).placeRecord who req 0 := by
      unfold Device.beginAppend RecordReq.length
      dsimp only
      rw [if_neg (by omega), if_neg (by omega)]
    have hskip : (d.beginAppend who req).mgmt = (d.skipRingEnd (d.ring - d.journal.head)).mgmt := by
      rw [hbegin]
      exact requestAppendWrite_mgmt _ _
    have hplaced : d.placedJournal who req = { d.journal with
        append := some (d.placedAppend who req), head := 0, endGap := d.ring - d.journal.head
        liveTail := if d.journal.liveTail = d.journal.head then 0 else d.journal.liveTail } := if_neg h6
    rw [hskip, skipRingEnd_mgmt, hplaced]
    exact congrArg d.mgmt.withCauses (lowCauses_congr _ rfl rfl rfl ⟨rfl, rfl, rfl⟩ ⟨rfl, rfl, rfl⟩)

theorem requestAppend_mgmt (d : Device) (who : Appender) (req : RecordReq) : (d.requestAppend who req).mgmt
    = d.mgmt.withCauses (d.lowCauses d.journal (d.appendAsked who req) d.mgmt.causes) := by
  unfold Device.requestAppend Device.appendAsked
  cases h : d.journal.append with
  | none => exact beginAppend_mgmt d who req
  | some a => exact congrArg d.mgmt.withCauses (lowCauses_of_same _ rfl rfl rfl).symm

/-! ### The first write of an append -/

theorem ringWrites_ne_nil (st : Straps) (pos : Nat) {ws : List Word} (h : ws ≠ []) : ringWrites st pos ws ≠ [] := by
  cases ws with
  | nil => exact absurd rfl h
  | cons w ws =>
    unfold ringWrites
    dsimp only
    split
    · simp
    · split <;> simp

/-- A record's writes are never none: its header has six words. -/
theorem recordWrites_ne_nil (st : Straps) (pos : Nat) {header : List Word} (images : List Word) (h : header ≠ []) :
    recordWrites st pos header images ≠ [] := by
  unfold recordWrites
  simp [ringWrites_ne_nil st pos h]

theorem recordHeader_ne_nil (kind ctx byte1 : Byte) (len : Nat) (seq inst line link : Word) (images : List Word) :
    recordHeader kind ctx byte1 len seq inst line link images ≠ [] := by simp [recordHeader]

/-- The write of an append that is asked for is its first. -/
theorem requestAppendWrite_firstAsked {d : Device} {a : Append} (h : a.writes ≠ []) :
    firstAsked a (d.requestAppendWrite a) := by
  obtain ⟨w, rest, hw⟩ := List.exists_cons_of_ne_nil h
  refine ⟨w, rest, hw, ?_⟩
  unfold Device.requestAppendWrite
  rw [hw]
  exact asked_request _ _

theorem firstAsked.mono {a : Append} {d e : Device} (h : firstAsked a d) (k : PortGrows d e) : firstAsked a e := by
  obtain ⟨w, rest, hw, ha⟩ := h
  exact ⟨w, rest, hw, k.asked ha⟩

theorem firstAsked.settle {a : Append} {d : Device} (h : firstAsked a d) : firstAsked a d.settle := by
  obtain ⟨w, rest, hw, ha⟩ := h
  exact ⟨w, rest, hw, mem_asked_settle (by simp) ha⟩

theorem firstAsked.grant {a : Append} {d : Device} (h : firstAsked a d) : firstAsked a d.grant := by
  obtain ⟨w, rest, hw, ha⟩ := h
  exact ⟨w, rest, hw, (mem_asked_grant (by simp)).mpr ha⟩

theorem recordAppend_writes_ne_nil (d : Device) (who : Appender) (req : RecordReq) (pos : Nat) (seq : Word) :
    (d.recordAppend who req pos seq).writes ≠ [] :=
  recordWrites_ne_nil _ _ _ (recordHeader_ne_nil _ _ _ _ _ _ _ _ _)

/-- The append in hand is the one that `placeRecord` has requested the first write of. -/
theorem placeRecord_firstAsked (d : Device) (who : Appender) (r : RecordReq) (pos : Nat) :
    firstAsked (d.recordAppend who r pos d.journal.nextSeq) (d.placeRecord who r pos) := by
  have hj := placeRecord_journal d who r pos
  unfold Device.placeRecord at hj ⊢
  dsimp only at hj ⊢
  rw [requestAppendWrite_frame _ _ .journal (by decide)] at hj
  have happend := Option.some.inj (congrArg Journal.append hj)
  rw [← happend]
  exact requestAppendWrite_firstAsked (by rw [happend]; exact recordAppend_writes_ne_nil _ _ _ _ _)

theorem placePad_firstAsked (d : Device) (who : Appender) (req : RecordReq) (r : Nat) :
    firstAsked { who := who, req := req, padLen := some r, pos := d.journal.head, seq := d.journal.nextSeq
                 writes := recordWrites d.part.straps d.journal.head
                   (recordHeader 5 0 0 r d.journal.nextSeq 0 0 0xFFFFFFFF []) [] } (d.placePad who req r) :=
  requestAppendWrite_firstAsked (recordWrites_ne_nil _ _ _ (recordHeader_ne_nil _ _ _ _ _ _ _ _ _))

/-- An append that begins has its first write asked for (R109). -/
theorem beginAppend_firstAsked (d : Device) (who : Appender) (req : RecordReq) :
    firstAsked (d.placedAppend who req) (d.beginAppend who req) := by
  have hl : Config.headerLength = 6 := rfl
  unfold Device.beginAppend Device.placedAppend RecordReq.length
  dsimp only
  rw [hl]
  by_cases hfit : 6 + req.images.length ≤ d.ring - d.journal.head
  · rw [if_pos hfit, if_pos hfit]
    exact placeRecord_firstAsked _ _ _ _
  · rw [if_neg hfit, if_neg hfit]
    by_cases h6 : 6 ≤ d.ring - d.journal.head
    · rw [if_pos h6, if_pos h6]
      exact placePad_firstAsked _ _ _ _
    · rw [if_neg h6, if_neg h6]
      have f := skipRingEnd_frame d (d.ring - d.journal.head)
      have hplace := placeRecord_firstAsked (d.skipRingEnd (d.ring - d.journal.head)) who req 0
      rw [recordAppend_congr (f .contexts (by decide)) (f .part (by decide)), skipRingEnd_journal] at hplace
      exact hplace

theorem requestAppend_firstAsked {d : Device} (who : Appender) (req : RecordReq) (h : d.journal.append = none) :
    firstAsked (d.placedAppend who req) (d.requestAppend who req) := by
  unfold Device.requestAppend
  rw [h]
  exact beginAppend_firstAsked _ _ _

end Sys2Proof.Machine
end

section
/-! What the write engine and the rollback engine take up: the head of the queue, a group, the first walk. -/

namespace Sys2Proof.Machine

/-! ### Groups (R90) -/

theorem wordsAbove_iff (a b : WordSet) : wordsAbove a b = true ↔
    ∀ i j : Fin 8, a.getLsbD i.val = true → b.getLsbD j.val = true → i < j := by
  simp only [wordsAbove, setWords, List.all_eq_true, List.mem_filter, List.mem_finRange, true_and, decide_eq_true_eq]
  exact ⟨fun h i j hi hj => h i hi j hj, fun h i hi j hj => h i j hi hj⟩

/-- A member of a group: its line write, its context and its needed words. -/
abbrev GroupMember := LineWrite × Ctx × WordSet

/-- The queue entry of a member of a group of the instance. -/
def memberEntry (inst : Word) (m : GroupMember) : QEntry := .logged m.1 m.2.1 inst m.2.2

/-- The group `g` is that of the members `ms` so far. -/
structure GroupOf (ms : List GroupMember) (g : Group) : Prop where
  ctx : ms.head?.map (·.2.1) = some g.ctx
  lines : ∀ m ∈ ms, m.1.line = g.line
  ascending : ms.Pairwise fun a b => ∀ i j : Fin 8, a.2.2.getLsbD i.val = true → b.2.2.getLsbD j.val = true → i < j
  union : ∀ i : Fin 8, g.union.getLsbD i.val = true ↔ ∃ m ∈ ms, m.2.2.getLsbD i.val = true
  members : g.members = ms.length
  remaining : g.remaining = ms.length
  images : g.images = []

/-- A qualifying entry joins the group (R90). -/
theorem GroupOf.snoc {ms : List GroupMember} {g : Group} (h : GroupOf ms g) {w : LineWrite} {c : Ctx} {needed : WordSet}
    (hl : w.line = g.line) (ha : wordsAbove g.union needed = true) : GroupOf (ms ++ [(w, c, needed)])
      { g with members := g.members + 1, remaining := g.remaining + 1, union := g.union ||| needed } where
  ctx := by
    cases ms with
    | nil => exact absurd h.ctx (by simp)
    | cons m ms => exact h.ctx
  lines m hm := by
    rcases List.mem_append.mp hm with hm | hm
    · exact h.lines m hm
    · rw [List.mem_singleton.mp hm]
      exact hl
  ascending := by
    refine List.pairwise_append.mpr ⟨h.ascending, List.pairwise_singleton _ _, fun a hma b hmb i j hi hj => ?_⟩
    rw [List.mem_singleton.mp hmb] at hj
    exact (wordsAbove_iff _ _).mp ha i j ((h.union i).mpr ⟨a, hma, hi⟩) hj
  union i := by
    rw [BitVec.getLsbD_or, Bool.or_eq_true, h.union i]
    simp [or_and_right, exists_or]
  members := by simp [h.members]
  remaining := by simp [h.remaining]
  images := h.images

/-- The group takes in the entries that qualify, and no other, up to the first that does not (R90). -/
theorem GroupOf.gathered {ms : List GroupMember} {g : Group} (h : GroupOf ms g) (q : List QEntry) :
    gatheredFrom (ms.map (memberEntry g.inst) ++ q) (g.extend q) := by
  have stops : (∀ w c needed more, q = .logged w c g.inst needed :: more → w.line = g.line →
      ∃ i j : Fin 8, g.union.getLsbD i.val = true ∧ needed.getLsbD j.val = true ∧ j ≤ i) →
      gatheredFrom (ms.map (memberEntry g.inst) ++ q) g := fun hq =>
    ⟨ms, q, rfl, h.ctx, h.lines, h.ascending, h.union, h.members, h.remaining, h.images, hq⟩
  induction q generalizing ms g with
  | nil => exact stops (by simp)
  | cons e q ih =>
    cases e with
    | logged w c inst needed =>
      unfold Group.extend
      split
      · next hq =>
        obtain ⟨rfl, hl, ha⟩ := hq
        have hjoin := h.snoc (c := c) hl ha
        have := ih hjoin fun hq => ⟨_, _, rfl, hjoin.ctx, hjoin.lines, hjoin.ascending, hjoin.union, hjoin.members,
          hjoin.remaining, hjoin.images, hq⟩
        rwa [List.map_append, List.append_assoc] at this
      · next hq =>
        refine stops fun w' c' needed' more heq hl => ?_
        simp only [List.cons.injEq, QEntry.logged.injEq] at heq
        obtain ⟨⟨rfl, rfl, rfl, rfl⟩, rfl⟩ := heq
        have hnot : ¬ wordsAbove g.union needed = true := fun ha => hq ⟨rfl, hl, ha⟩
        rw [wordsAbove_iff] at hnot
        push Not at hnot
        exact hnot
    | _ => exact stops (by simp)

/-- A LOGGED head alone, before the entries behind it are considered. -/
def headGroup (w : LineWrite) (c : Ctx) (inst : Word) (needed : WordSet) : Group :=
  { inst := inst, ctx := c, line := w.line, members := 1, remaining := 1, union := needed, images := [] }

theorem headGroup_of (w : LineWrite) (c : Ctx) (inst : Word) (needed : WordSet) :
    GroupOf [(w, c, needed)] (headGroup w c inst needed) where
  ctx := rfl
  lines := by simp [headGroup]
  ascending := List.pairwise_singleton _ _
  union := by simp [headGroup]
  members := rfl
  remaining := rfl
  images := rfl

/-- The group that a queue with a LOGGED head forms. -/
theorem headGroup_gathered (w : LineWrite) (c : Ctx) (inst : Word) (needed : WordSet) (rest : List QEntry) :
    gatheredFrom (.logged w c inst needed :: rest) ((headGroup w c inst needed).extend rest) :=
  (headGroup_of w c inst needed).gathered rest

/-! ### The write engine -/

theorem requestData_asked {d : Device} {e : QEntry} {rest : List QEntry} {w : LineWrite} (hq : d.queue = e :: rest)
    (hw : e.write? = some w) : .write .data w ∈ d.requestData.port.asked := by
  unfold Device.requestData
  rw [hq]
  simp only [List.head?_cons, Option.bind_some, hw]
  exact asked_request _ _

/-- The two blocks give a request's record the same link: an OPEN has none, and every other the newest record of its
context (R88, R93, R129, R141). -/
def sameLink (req : RecordReq) (d e : Device) : Prop :=
  req.kind = .openRec ∨ (e.ctx req.ctx).newest = (d.ctx req.ctx).newest

theorem sameLink_of_contexts {d e : Device} (h : e.contexts = d.contexts) (req : RecordReq) : sameLink req d e :=
  Or.inr (by rw [Device.ctx_congr h])

theorem recordAppend_of_sameLink {d e : Device} {req : RecordReq} (hl : sameLink req d e) (hp : e.part = d.part)
    (who : Appender) (pos : Nat) (seq : Word) : e.recordAppend who req pos seq = d.recordAppend who req pos seq := by
  unfold Device.recordAppend
  rcases hl with hk | hn
  · simp only [hk, hp]
  · simp only [hn, hp]

section
variable {d e : Device} {req : RecordReq}

theorem placedAppend_congr (hl : sameLink req d e) (hp : e.part = d.part) (hj : e.journal = d.journal)
    (who : Appender) : e.placedAppend who req = d.placedAppend who req := by
  have hring : e.ring = d.ring := by
    unfold Device.ring
    rw [hp]
  unfold Device.placedAppend
  simp only [hring, hj, hp, recordAppend_of_sameLink hl hp]

theorem placedJournal_congr (hl : sameLink req d e) (hp : e.part = d.part) (hj : e.journal = d.journal)
    (who : Appender) : e.placedJournal who req = d.placedJournal who req := by
  have hring : e.ring = d.ring := by
    unfold Device.ring
    rw [hp]
  unfold Device.placedJournal
  rw [placedAppend_congr hl hp hj, hring, hj]

theorem appendAsked_congr (hl : sameLink req d e) (hp : e.part = d.part) (hj : e.journal = d.journal)
    (who : Appender) : e.appendAsked who req = d.appendAsked who req := by
  unfold Device.appendAsked
  rw [placedJournal_congr hl hp hj, hj]

theorem requestAppend_mgmt_congr (hl : sameLink req d e) (hp : e.part = d.part) (hj : e.journal = d.journal)
    (hm : e.mgmt = d.mgmt) (who : Appender) : (e.requestAppend who req).mgmt
      = d.mgmt.withCauses (d.lowCauses d.journal (d.appendAsked who req) d.mgmt.causes) := by
  rw [requestAppend_mgmt, appendAsked_congr hl hp hj, hm, hj]
  exact congrArg d.mgmt.withCauses (lowCauses_congr _ hp (by rw [hm]) rfl ⟨rfl, rfl, rfl⟩ ⟨rfl, rfl, rfl⟩)

end

theorem takenUp_congr {d e : Device} (hn : ∀ c, (e.ctx c).newest = (d.ctx c).newest) (hp : e.part = d.part)
    (hj : e.journal = d.journal) (q : List QEntry) : e.takenUp q = d.takenUp q := by
  cases q with
  | nil => exact hj
  | cons x q =>
    cases x with
    | openEntry c i => exact appendAsked_congr (Or.inl rfl) hp hj _
    | commitEntry c i => exact appendAsked_congr (Or.inr (hn c)) hp hj _
    | _ => exact hj

section
variable {d : Device} {rest : List QEntry}

theorem engineNext_nil (h : d.queue = []) : d.engineNext = { d with engine := .idle } := by
  simp only [Device.engineNext, h]

theorem engineNext_plain {w : LineWrite} (h : d.queue = .plain w :: rest) :
    d.engineNext = Device.requestData { d with engine := .data } := by
  simp only [Device.engineNext, h]

theorem engineNext_covered {w : LineWrite} {c : Ctx} {i : Word} (h : d.queue = .covered w c i :: rest) :
    d.engineNext = Device.requestData { d with engine := .data } := by
  simp only [Device.engineNext, h]

theorem engineNext_openEntry {c : Ctx} {i : Word} (h : d.queue = .openEntry c i :: rest) :
    d.engineNext = Device.requestAppend { d with engine := .openRecord } .writeEngine (openRecordReq c i) := by
  simp only [Device.engineNext, h]

theorem engineNext_commitEntry {c : Ctx} {i : Word} (h : d.queue = .commitEntry c i :: rest) :
    d.engineNext = Device.requestAppend { d with engine := .committing } .writeEngine (commitRecordReq c i) := by
  simp only [Device.engineNext, h]

theorem engineNext_logged {w : LineWrite} {c : Ctx} {i : Word} {n : WordSet} (h : d.queue = .logged w c i n :: rest) :
    d.engineNext = Device.request { d with engine := .gather ((headGroup w c i n).extend rest) }
      (.read .oldLine w.line) := by
  simp only [Device.engineNext, headGroup, h]

end

theorem engineNext_journal (d : Device) : d.engineNext.journal = d.takenUp d.queue := by
  have data : ∀ x : Device, x.requestData.journal = x.journal := fun x => requestData_frame x .journal (by decide)
  have append : ∀ (n : Engine) (r : RecordReq), (Device.requestAppend { d with engine := n } .writeEngine r).journal
      = d.appendAsked .writeEngine r := fun n r =>
    (requestAppend_journal _ _ _).trans (appendAsked_congr (sameLink_of_contexts rfl r) rfl rfl _)
  cases hq : d.queue with
  | nil => rw [engineNext_nil hq]; rfl
  | cons e rest =>
    cases e with
    | plain w => rw [engineNext_plain hq]; exact data _
    | covered w c i => rw [engineNext_covered hq]; exact data _
    | logged w c i n => rw [engineNext_logged hq]; rfl
    | openEntry c i => rw [engineNext_openEntry hq]; exact append _ _
    | commitEntry c i => rw [engineNext_commitEntry hq]; exact append _ _

theorem engineNext_mgmt (d : Device) : d.engineNext.mgmt
    = d.mgmt.withCauses (d.lowCauses d.journal (d.takenUp d.queue) d.mgmt.causes) := by
  have data : ∀ x : Device, x.requestData.mgmt = x.mgmt := fun x => requestData_frame x .mgmt (by decide)
  have append : ∀ (n : Engine) (r : RecordReq), (Device.requestAppend { d with engine := n } .writeEngine r).mgmt
        = d.mgmt.withCauses (d.lowCauses d.journal (d.appendAsked .writeEngine r) d.mgmt.causes) := fun _ r =>
    requestAppend_mgmt_congr (sameLink_of_contexts rfl r) rfl rfl rfl _
  have still : d.mgmt = d.mgmt.withCauses (d.lowCauses d.journal d.journal d.mgmt.causes) :=
    congrArg d.mgmt.withCauses (lowCauses_of_same _ rfl rfl rfl).symm
  cases hq : d.queue with
  | nil => rw [engineNext_nil hq]; exact still
  | cons e rest =>
    cases e with
    | plain w => rw [engineNext_plain hq]; exact (data _).trans still
    | covered w c i => rw [engineNext_covered hq]; exact (data _).trans still
    | logged w c i n => rw [engineNext_logged hq]; exact still
    | openEntry c i => rw [engineNext_openEntry hq]; exact append _ _
    | commitEntry c i => rw [engineNext_commitEntry hq]; exact append _ _

/-- The engine takes up the head of the queue (R86-R90, R129). -/
theorem engineNext_took (d : Device) : engineTook d.queue d d.engineNext := by
  have data : ∀ x : Device, x.requestData.engine = x.engine := fun x => requestData_frame x .engine (by decide)
  have append : ∀ (x : Device) (w : Appender) (r : RecordReq), (x.requestAppend w r).engine = x.engine := fun x w r =>
    requestAppend_frame x w r .engine (by decide)
  have first : ∀ (n : Engine) (r : RecordReq), d.journal.append = none →
      firstAsked (d.placedAppend .writeEngine r)
        (Device.requestAppend { d with engine := n } .writeEngine r) := fun n r h => by
    rw [← placedAppend_congr (d := d) (e := { d with engine := n }) (sameLink_of_contexts rfl r) rfl rfl]
    exact requestAppend_firstAsked _ _ h
  cases hq : d.queue with
  | nil => rw [engineNext_nil hq]; exact rfl
  | cons e rest =>
    cases e with
    | plain w =>
      rw [engineNext_plain hq]
      exact ⟨data _, requestData_asked (d := { d with engine := .data }) hq rfl⟩
    | covered w c i =>
      rw [engineNext_covered hq]
      exact ⟨data _, requestData_asked (d := { d with engine := .data }) hq rfl⟩
    | logged w c i n =>
      rw [engineNext_logged hq]
      exact ⟨asked_request _ _, _, rfl, headGroup_gathered _ _ _ _ _⟩
    | openEntry c i => rw [engineNext_openEntry hq]; exact ⟨append _ _ _, first _ _⟩
    | commitEntry c i => rw [engineNext_commitEntry hq]; exact ⟨append _ _ _, first _ _⟩

/-- What the engine took up it has still when requests were added and it was left alone. -/
theorem engineTook.mono {q : List QEntry} {d e f : Device} (h : engineTook q d e) (he : f.engine = e.engine)
    (hp : PortGrows e f) : engineTook q d f := by
  cases q with
  | nil => exact he.trans h
  | cons x q =>
    cases x with
    | plain w => exact ⟨he.trans h.1, hp.asked h.2⟩
    | covered w c i => exact ⟨he.trans h.1, hp.asked h.2⟩
    | logged w c i n => exact ⟨hp.asked h.1, h.2.imp fun g hg => ⟨he.trans hg.1, hg.2⟩⟩
    | openEntry c i => exact ⟨he.trans h.1, fun ha => (h.2 ha).mono hp⟩
    | commitEntry c i => exact ⟨he.trans h.1, fun ha => (h.2 ha).mono hp⟩

/-! ### The rollback engine's selection (R135, R137) -/

theorem eligible_of_queued {d : Device} {l : List ListEntry} (h : ∀ x ∈ l, (d.ctx x.ctx).queued ≠ 0) :
    d.eligible l = none := by
  induction l with
  | nil => rfl
  | cons x l ih =>
    unfold Device.eligible
    split
    · next hz _ => exact absurd hz (h x List.mem_cons_self)
    · exact ih fun y hy => h y (List.mem_cons_of_mem _ hy)

theorem eligible_append {d : Device} {before : List ListEntry} (rest : List ListEntry)
    (h : ∀ x ∈ before, (d.ctx x.ctx).queued ≠ 0) : d.eligible (before ++ rest) = d.eligible rest := by
  induction before with
  | nil => rfl
  | cons x l ih =>
    rw [List.cons_append]
    conv_lhs => unfold Device.eligible
    split
    · next hz _ => exact absurd hz (h x List.mem_cons_self)
    · exact ih fun y hy => h y (List.mem_cons_of_mem _ hy)

theorem eligible_cons {d : Device} {x : ListEntry} {p : Nat} (rest : List ListEntry)
    (hq : (d.ctx x.ctx).queued = 0) (hn : (d.ctx x.ctx).newest = some p) : d.eligible (x :: rest) = some (x, p) := by
  simp only [Device.eligible, hq, hn]

theorem select_of_none {d : Device} (h : d.eligible d.rollback.list = none) : d.select = d := by
  unfold Device.select
  rw [h]
  exact ite_self _

theorem select_of_not_idle {d : Device}
    (h : ¬ (d.rollback.state = .idle ∧ (d.part.state = .running ∨ d.part.state = .starting))) : d.select = d := if_neg h

/-- The selection makes of the rollback engine what R135 says. -/
theorem select_walkChosen (d : Device) : walkChosen d.rollback d d.select := by
  have hctx : ∀ c, d.select.ctx c = d.ctx c := Device.ctx_congr (select_frame d .contexts (by decide))
  have hpart : d.select.part = d.part := select_frame d .part (by decide)
  refine ⟨fun h => by rw [select_of_not_idle h], fun h => ?_, fun before x after p hsel hlist hbefore hx hp => ?_⟩
  · simp only [hctx] at h
    rw [select_of_none (eligible_of_queued h)]
  · simp only [hctx] at hbefore hx hp
    have helig : d.eligible d.rollback.list = some (x, p) := by
      rw [hlist, eligible_append _ hbefore, eligible_cons _ hx hp]
    rw [hpart]
    unfold Device.select
    rw [if_pos hsel, helig]
    exact ⟨rfl, asked_request _ _⟩

/-- The choice stands while the contexts' queues and records and the rollback engine do. -/
theorem walkChosen.mono {r : Rollback} {d e f : Device} (h : walkChosen r d e) (hr : f.rollback = e.rollback)
    (hc : ∀ c, (f.ctx c).queued = (e.ctx c).queued ∧ (f.ctx c).newest = (e.ctx c).newest)
    (hs : f.part.straps = e.part.straps) (ha : ∀ l, .read .walk l ∈ e.port.asked → .read .walk l ∈ f.port.asked) :
    walkChosen r d f := by
  obtain ⟨hnot, hall, hfirst⟩ := h
  refine ⟨fun k => hr.trans (hnot k), fun k => hr.trans (hall ?_), fun before x after p hsel hl hb hx hp => ?_⟩
  · simpa only [hc] using k
  · simp only [hc] at hb hx hp
    obtain ⟨h1, h2⟩ := hfirst before x after p hsel hl hb hx hp
    rw [hr, hs]
    exact ⟨h1, ha _ h2⟩

/-- The choice is made by the part state of the block before. -/
theorem walkChosen.of_part {r : Rollback} {d d' e : Device} (h : walkChosen r d e)
    (hp : d'.part.state = d.part.state) : walkChosen r d' e := by
  unfold walkChosen at h ⊢
  simpa only [hp] using h

theorem walkChosen.grant {r : Rollback} {d e : Device} (h : walkChosen r d e) : walkChosen r d e.grant :=
  h.mono (grant_frame e .rollback (by decide))
    (fun c => by rw [Device.ctx_congr (grant_frame e .contexts (by decide))]; exact ⟨rfl, rfl⟩)
    (by rw [grant_frame e .part (by decide)]) fun l hl => (mem_asked_grant (by simp)).mpr hl

end Sys2Proof.Machine
end

section
/-! An entry placed at the tail of the write queue, and what the write engine makes of it (R28, R41, R84, R86, R91). -/

namespace Sys2Proof.Machine

/-- The entry at the tail and in its context's count, before the engine sees it. -/
def Device.entered (d : Device) (e : QEntry) : Device := Device.countPlaced { d with queue := d.queue ++ [e] } e

theorem placeEntry_eq (d : Device) (e : QEntry) : d.placeEntry e = (d.entered e).engineSees := rfl

theorem entered_frame (d : Device) (e : QEntry) : unchangedBut [.queue, .contexts] d (d.entered e) := counted_frame d e

@[simp] theorem entered_queue (d : Device) (e : QEntry) : (d.entered e).queue = d.queue ++ [e] := countPlaced_queue _ _
@[simp] theorem entered_port (d : Device) (e : QEntry) : (d.entered e).port = d.port := entered_frame d e .port (by decide)
@[simp] theorem entered_engine (d : Device) (e : QEntry) : (d.entered e).engine = d.engine :=
  entered_frame d e .engine (by decide)
@[simp] theorem entered_journal (d : Device) (e : QEntry) : (d.entered e).journal = d.journal :=
  entered_frame d e .journal (by decide)
@[simp] theorem entered_part (d : Device) (e : QEntry) : (d.entered e).part = d.part := entered_frame d e .part (by decide)
@[simp] theorem entered_mgmt (d : Device) (e : QEntry) : (d.entered e).mgmt = d.mgmt := entered_frame d e .mgmt (by decide)

theorem entered_ctx {d : Device} {e : QEntry} {c : Ctx} (h : e.ctx? = some c) :
    (d.entered e).ctx c = { d.ctx c with queued := (d.ctx c).queued + 1 } := by
  unfold Device.entered Device.countPlaced
  rw [h]
  exact Device.ctx_modifyCtx { d with queue := d.queue ++ [e] } c _

theorem entered_otherContexts {d : Device} {e : QEntry} {c : Ctx} (h : e.ctx? = some c) :
    otherContexts c d (d.entered e) := fun x hx => by
  unfold Device.entered Device.countPlaced
  rw [h]
  exact Device.ctx_modifyCtx_ne { d with queue := d.queue ++ [e] } c x _ hx

/-- The count of queued entries is not what a record's link looks at. -/
theorem entered_newest (d : Device) (e : QEntry) (c : Ctx) : ((d.entered e).ctx c).newest = (d.ctx c).newest := by
  cases he : e.ctx? with
  | none =>
    unfold Device.entered Device.countPlaced
    rw [he]
    rfl
  | some x =>
    by_cases hc : c = x
    · subst hc
      rw [entered_ctx he]
    · rw [entered_otherContexts he c hc]

/-! ### The engine sees the entry -/

theorem engineSees_of_idle {d : Device} (h : d.engine = .idle) : d.engineSees = d.engineNext := by
  simp only [Device.engineSees, h]

theorem engineSees_of_gather {d : Device} {g : Group} (h : d.engine = .gather g) :
    d.engineSees = { d with engine := .gather ((gatherGroup d.queue).getD g) } := by
  simp only [Device.engineSees, h]

theorem engineSees_of_other {d : Device} (hi : d.engine ≠ .idle) (hg : ∀ g, d.engine ≠ .gather g) :
    d.engineSees = d := by
  unfold Device.engineSees
  split
  · next h => exact absurd h hi
  · next g h => exact absurd h (hg g)
  · rfl

/-- An engine at work does no more than consider the entry for its group. -/
theorem engineSees_frame_of_busy {d : Device} (h : d.engine ≠ .idle) : unchangedBut [.engine] d d.engineSees := by
  by_cases hg : ∃ g, d.engine = .gather g
  · obtain ⟨g, hg⟩ := hg
    rw [engineSees_of_gather hg]
    exact engine_frame _ _
  · rw [engineSees_of_other h fun g k => hg ⟨g, k⟩]
    exact .refl _ _

/-- The group in GATHER is the one that the queue with the new entry forms (R91). -/
theorem gatherGroup_logged (w : LineWrite) (c : Ctx) (i : Word) (n : WordSet) (rest : List QEntry) :
    gatherGroup (.logged w c i n :: rest) = some ((headGroup w c i n).extend rest) := rfl

section
variable {d : Device} (e : QEntry)

theorem placeEntry_frame_of_busy (h : d.engine ≠ .idle) :
    unchangedBut [.queue, .contexts, .engine] d (d.placeEntry e) :=
  (entered_frame d e).comp (engineSees_frame_of_busy (by rwa [entered_engine])) (by decide) (by decide)

theorem placeEntry_engine_of_other (hi : d.engine ≠ .idle) (hg : ∀ g, d.engine ≠ .gather g) :
    (d.placeEntry e).engine = d.engine := by
  rw [placeEntry_eq, engineSees_of_other (by rwa [entered_engine]) (by simpa using hg), entered_engine]

theorem placeEntry_gathers {g : Group} {w : LineWrite} {c : Ctx} {i : Word} {n : WordSet} {rest : List QEntry}
    (hg : d.engine = .gather g) (hq : d.queue = .logged w c i n :: rest) :
    ∃ g', (d.placeEntry e).engine = .gather g' ∧ gatheredFrom (d.placeEntry e).queue g' := by
  have hsees := engineSees_of_gather ((entered_engine d e).trans hg)
  have hqueue : (d.entered e).queue = .logged w c i n :: (rest ++ [e]) := by
    rw [entered_queue, hq]
    rfl
  rw [placeEntry_queue, placeEntry_eq, hsees, hqueue, gatherGroup_logged, hq]
  exact ⟨_, rfl, headGroup_gathered _ _ _ _ _⟩

/-- An IDLE engine, which has no entry queued, takes the new one up (R86). -/
theorem placeEntry_of_idle (hi : d.engine = .idle) (hq : d.queue = []) :
    d.placeEntry e = (d.entered e).engineNext ∧ (d.entered e).queue = [e] := by
  refine ⟨(placeEntry_eq d e).trans (engineSees_of_idle ((entered_engine d e).trans hi)), ?_⟩
  rw [entered_queue, hq]
  rfl

end

theorem placeEntry_grows (d : Device) (e : QEntry) : PortGrows d (d.placeEntry e) := by
  rw [placeEntry_eq]
  refine PortGrows.of_start ?_ (entered_port d e)
  unfold Device.engineSees
  split
  · exact engineNext_grows _
  · exact .of_port rfl
  · exact .refl _

theorem engineSees_contexts (d : Device) : d.engineSees.contexts = d.contexts :=
  engineSees_frame d .contexts (by decide)

theorem placeEntry_ctx {d : Device} {e : QEntry} {c : Ctx} (h : e.ctx? = some c) :
    (d.placeEntry e).ctx c = { d.ctx c with queued := (d.ctx c).queued + 1 } := by
  rw [placeEntry_eq, Device.ctx_congr (engineSees_contexts _), entered_ctx h]

theorem placeEntry_otherContexts {d : Device} {e : QEntry} {c : Ctx} (h : e.ctx? = some c) :
    otherContexts c d (d.placeEntry e) := fun x hx => by
  rw [placeEntry_eq, Device.ctx_congr (engineSees_contexts _), entered_otherContexts h x hx]

/-- The journal controller after an entry is placed: an idle engine may have asked for its record. -/
theorem placeEntry_journal_of_idle {d : Device} (e : QEntry) (hi : d.engine = .idle) (hq : d.queue = []) :
    (d.placeEntry e).journal = d.takenUp [e] := by
  obtain ⟨hp, hqueue⟩ := placeEntry_of_idle e hi hq
  rw [hp, engineNext_journal, hqueue]
  exact takenUp_congr (entered_newest d e) (entered_part d e) (entered_journal d e) _

theorem placeEntry_mgmt_of_idle {d : Device} (e : QEntry) (hi : d.engine = .idle) (hq : d.queue = []) :
    (d.placeEntry e).mgmt = d.mgmt.withCauses (d.lowCauses d.journal (d.takenUp [e]) d.mgmt.causes) := by
  obtain ⟨hp, hqueue⟩ := placeEntry_of_idle e hi hq
  rw [hp, engineNext_mgmt, hqueue, takenUp_congr (entered_newest d e) (entered_part d e) (entered_journal d e),
    entered_journal, entered_mgmt]
  exact congrArg d.mgmt.withCauses
    (lowCauses_congr _ (entered_part d e) (by rw [entered_mgmt]) rfl ⟨rfl, rfl, rfl⟩ ⟨rfl, rfl, rfl⟩)

theorem placeEntry_took_of_idle {d : Device} (e : QEntry) (hi : d.engine = .idle) (hq : d.queue = []) :
    engineTook [e] (d.entered e) (d.placeEntry e) := by
  obtain ⟨hp, hqueue⟩ := placeEntry_of_idle e hi hq
  have htook := engineNext_took (d.entered e)
  rwa [hqueue, ← hp] at htook

/-- An entry that asks for no record touches the journal controller and the causes neither way. -/
theorem placeEntry_frame_of_write {d : Device} {e : QEntry} {w : LineWrite} (hw : e.write? = some w)
    (hq : d.engine = .idle → d.queue = []) :
    unchangedBut [.queue, .contexts, .engine, .port] d (d.placeEntry e) := by
  by_cases hi : d.engine = .idle
  · obtain ⟨hp, hqueue⟩ := placeEntry_of_idle e hi (hq hi)
    have hnext : unchangedBut [.engine, .port] (d.entered e) (d.entered e).engineNext := by
      cases e with
      | plain w =>
        rw [engineNext_plain hqueue]
        exact (engine_frame _ _).comp (requestData_frame _) (by decide) (by decide)
      | covered w c i =>
        rw [engineNext_covered hqueue]
        exact (engine_frame _ _).comp (requestData_frame _) (by decide) (by decide)
      | logged w c i n =>
        rw [engineNext_logged hqueue]
        exact (engine_frame _ _).comp (request_frame _ _) (by decide) (by decide)
      | openEntry c i => exact absurd hw (by simp [QEntry.write?])
      | commitEntry c i => exact absurd hw (by simp [QEntry.write?])
    rw [hp]
    exact (entered_frame d e).comp hnext (by decide) (by decide)
  · exact (placeEntry_frame_of_busy e hi).mono (by decide)

theorem placeEntry_frame_of_plain {d : Device} {w : LineWrite} (hq : d.engine = .idle → d.queue = []) :
    unchangedBut [.queue, .engine, .port] d (d.placeEntry (.plain w)) := fun b hb => by
  by_cases hc : b = .contexts
  · subst hc
    exact engineSees_contexts (d.entered (.plain w))
  · refine placeEntry_frame_of_write rfl hq b fun hin => ?_
    simp only [List.mem_cons, List.not_mem_nil, or_false, not_or] at hin hb
    tauto

end Sys2Proof.Machine
end

section
/-! A WRITE: its refusals and waits, and the entries that it places (R24-R28, R56, R67-R73). -/

namespace Sys2Proof.Machine

/-! ### The evaluation, check by check -/

/-- A WRITE writes nothing only as a single beat with no lane set (R16). -/
theorem writtenWords_ne_nil {c : WriteCycle} (o : BurstOrder) (hlen : c.data.length = c.blen.beats)
    (h : c.blen ≠ .one ∨ c.lanes ≠ 0) : writtenWords c o ≠ [] := by
  by_cases hb : c.blen = .one
  · rw [writtenWords_of_single o hb, if_neg (h.resolve_left fun k => k hb)]
    have : 0 < c.data.length := hlen ▸ beats_pos _
    obtain ⟨v, vs, hv⟩ := List.exists_cons_of_ne_nil (List.ne_nil_of_length_pos this)
    simp [hv]
  · have hmem := (mem_beats_zip (o := o) hlen).mpr ⟨0, beats_pos _, rfl⟩
    rw [writtenWords_of_burst o hb]
    exact List.ne_nil_of_mem (mem_placedWords.mpr ⟨_, hmem, rfl⟩)

theorem lt_five_of_ctxOfLines {l : BitVec 3} {x : Ctx} (h : ctxOfLines l = some x) : l.toNat < 5 := by
  have := (ctxOfLines_iff l x).mp h
  have := x.isLt
  omega

section
variable {d : Device} {c : WriteCycle} {o : BurstOrder} {mode : RegionMode} {view : ReadView}

theorem evalWrite_badTag (h : 5 ≤ c.ctxLines.toNat) : d.evalWrite c o = d.refuseWrite c .badTag :=
  if_pos ((badTag_iff _).mpr h)

theorem evalWrite_outside (ht : c.ctxLines.toNat < 5) (h : d.classify c.addr = .outside) :
    d.evalWrite c o = d.refuseWrite c .outside := by
  simp only [Device.evalWrite, badTag_of_lt ht, h, Bool.false_eq_true, if_false]

theorem evalWrite_protected (ht : c.ctxLines.toNat < 5) (h : d.classify c.addr = .protectedArea) :
    d.evalWrite c o = d.refuseWrite c .protectedArea := by
  simp only [Device.evalWrite, badTag_of_lt ht, h, Bool.false_eq_true, if_false]

theorem evalWrite_readonly (ht : c.ctxLines.toNat < 5) (h : d.classify c.addr = .region .readonly view) :
    d.evalWrite c o = d.refuseWrite c .readonly := by
  simp only [Device.evalWrite, badTag_of_lt ht, h, Bool.false_eq_true, if_false, if_true]

theorem evalWrite_empty (ht : c.ctxLines.toNat < 5) (h : d.classify c.addr = .region mode view)
    (hm : mode ≠ .readonly) (hw : writtenWords c o = []) : d.evalWrite c o = d.answer .okay [] := by
  simp only [Device.evalWrite, badTag_of_lt ht, h, hm, hw, Bool.false_eq_true, if_false, if_true]

theorem evalWrite_pass (ht : c.ctxLines.toNat < 5) (h : d.classify c.addr = .region .pass view)
    (hw : writtenWords c o ≠ []) : d.evalWrite c o = d.admitEntry c o (.plain (lineWriteOf c o)) := by
  simp only [Device.evalWrite, badTag_of_lt ht, h, hw, Bool.false_eq_true, if_false, if_true, reduceCtorEq]

theorem evalWrite_journalled (ht : c.ctxLines.toNat < 5) (h : d.classify c.addr = .region mode view)
    (hm : mode = .journal ∨ mode = .strict) (hw : writtenWords c o ≠ []) :
    d.evalWrite c o = d.admitJournalled c o mode := by
  have hr : mode ≠ .readonly := by rcases hm with rfl | rfl <;> decide
  have hp : mode ≠ .pass := by rcases hm with rfl | rfl <;> decide
  simp only [Device.evalWrite, badTag_of_lt ht, h, hw, hr, hp, Bool.false_eq_true, if_false]

theorem admitJournalled_foreign {e : OwnEntry} (ho : d.ownerOf (lineOf c.addr.toNat) = some e)
    (hf : ctxOfLines c.ctxLines ≠ some e.ctx) : d.admitJournalled c o mode
      = if (d.ctx e.ctx).state.live then d.refuseWrite c .conflict
        else d.waitOn (.write c o) (.ownersRelease e.inst) := by
  simp only [Device.admitJournalled, ho, (foreignTo_iff _ _).mpr hf, if_true]

theorem admitJournalled_own (h : ∀ e, d.ownerOf (lineOf c.addr.toNat) = some e → ctxOfLines c.ctxLines = some e.ctx) :
    d.admitJournalled c o mode = d.admitByTag c o mode := by
  unfold Device.admitJournalled
  split
  · next e he => exact if_neg fun k => (foreignTo_iff _ _).mp k (h e he)
  · rfl

theorem admitByTag_untagged (h : ctxOfLines c.ctxLines = none) : d.admitByTag c o mode
    = if mode = .strict then d.refuseWrite c .untagged else d.admitEntry c o (.plain (lineWriteOf c o)) := by
  simp only [Device.admitByTag, h]

theorem admitByTag_tagged {x : Ctx} (h : ctxOfLines c.ctxLines = some x) : d.admitByTag c o mode
    = if (d.ctx x).state = .opened then d.admitTagged c o x else d.refuseWrite c .state := by
  simp only [Device.admitByTag, h]

/-- A tagged write of an OPEN context to a line of its own or of nobody (R25, R26). -/
theorem evalWrite_tagged {x : Ctx} (h : d.classify c.addr = .region mode view)
    (hm : mode = .journal ∨ mode = .strict) (hw : writtenWords c o ≠ []) (hx : ctxOfLines c.ctxLines = some x)
    (hs : (d.ctx x).state = .opened) (ho : ∀ e, d.ownerOf (lineOf c.addr.toNat) = some e → e.ctx = x) :
    d.evalWrite c o = d.admitTagged c o x := by
  rw [evalWrite_journalled (lt_five_of_ctxOfLines hx) h hm hw,
    admitJournalled_own fun e he => (ho e he).symm ▸ hx, admitByTag_tagged hx, if_pos hs]

/-- A write to a line of another owner (R25, R68). -/
theorem evalWrite_foreign {e : OwnEntry} (ht : c.ctxLines.toNat < 5) (h : d.classify c.addr = .region mode view)
    (hm : mode = .journal ∨ mode = .strict) (hw : writtenWords c o ≠ [])
    (ho : d.ownerOf (lineOf c.addr.toNat) = some e) (hf : ctxOfLines c.ctxLines ≠ some e.ctx) :
    d.evalWrite c o = if (d.ctx e.ctx).state.live then d.refuseWrite c .conflict
        else d.waitOn (.write c o) (.ownersRelease e.inst) :=
  (evalWrite_journalled ht h hm hw).trans (admitJournalled_foreign ho hf)

/-- An untagged write to a line of nobody (R25). -/
theorem evalWrite_untagged (h : d.classify c.addr = .region mode view) (hm : mode = .journal ∨ mode = .strict)
    (hw : writtenWords c o ≠ []) (hx : c.ctxLines = 0) (ho : d.ownerOf (lineOf c.addr.toNat) = none) :
    d.evalWrite c o
      = if mode = .strict then d.refuseWrite c .untagged else d.admitEntry c o (.plain (lineWriteOf c o)) := by
  have hnone : ctxOfLines c.ctxLines = none := by rw [hx]; decide
  have ht : c.ctxLines.toNat < 5 := by rw [hx]; decide
  rw [evalWrite_journalled ht h hm hw, admitJournalled_own fun e he => absurd (ho.symm.trans he) (by simp),
    admitByTag_untagged hnone]

theorem admitEntry_full (e : QEntry) (h : 8 ≤ d.queue.length) :
    d.admitEntry c o e = d.waitOn (.write c o) .queueSpace := if_pos ((queueFull_iff d).mpr h)

theorem admitEntry_placed (e : QEntry) (h : d.queue.length < 8) :
    d.admitEntry c o e = (d.placeEntry e).answer .okay [] :=
  if_neg fun k => absurd ((queueFull_iff d).mp k) (by omega)

/-- The words of a tagged write that its line's owner has not logged. -/
theorem admitTagged_owned {x : Ctx} {e : OwnEntry} (ho : d.ownerOf (lineOf c.addr.toNat) = some e) :
    d.admitTagged c o x =
      if wordSetOf (writtenWords c o) &&& ~~~ e.logged = 0 then
        d.admitEntry c o (.covered (lineWriteOf c o) x (d.ctx x).inst)
      else d.admitLogged c o x (wordSetOf (writtenWords c o) &&& ~~~ e.logged) := by
  have ho' : d.ownerOf (lineWriteOf c o).line = some e := ho
  simp only [Device.admitTagged, ho']
  rfl

theorem admitTagged_unowned {x : Ctx} (ho : d.ownerOf (lineOf c.addr.toNat) = none) :
    d.admitTagged c o x =
      if 128 ≤ d.own.length then Device.refuseWrite (d.spoil x .ownershipFull) c .noRoom
      else d.admitLogged c o x (wordSetOf (writtenWords c o)) := by
  have ho' : d.ownerOf (lineWriteOf c o).line = none := ho
  simp only [Device.admitTagged, ho']
  rfl

theorem admitLogged_noRoom {x : Ctx} {needed : WordSet} (h : d.free < 14) : d.admitLogged c o x needed
    = if d.reclaimPossible then Device.requestReclaim (d.waitOn (.write c o) .journalRoom)
      else Device.refuseWrite (d.spoil x .journalFull) c .noRoom := if_pos h

theorem admitLogged_full {x : Ctx} {needed : WordSet} (h : (14 : Int) ≤ d.free) (hq : 8 ≤ d.queue.length) :
    d.admitLogged c o x needed = d.waitOn (.write c o) .queueSpace :=
  (if_neg (not_lt.mpr h)).trans (if_pos ((queueFull_iff d).mpr hq))

theorem admitLogged_placed {x : Ctx} {needed : WordSet} (h : (14 : Int) ≤ d.free) (hq : d.queue.length < 8) :
    d.admitLogged c o x needed =
      (((d.logWords (lineOf c.addr.toNat) x (d.ctx x).inst needed).reserve 14).placeEntry
        (.logged (lineWriteOf c o) x (d.ctx x).inst needed)).answer .okay [] :=
  (if_neg (not_lt.mpr h)).trans (if_neg fun k => absurd ((queueFull_iff d).mp k) (by omega))

end

/-! ### Refusals and waits -/

/-- A WRITE whose evaluation leaves the part and the port leaves the device as evaluated. -/
theorem exec_hostWrite_unported {c : WriteCycle} {s : State} {e : Device} (he : s.evaluates) (hs : SettledInv s)
    (hl : c.data.length = c.blen.beats)
    (h : s.dev.arrived.evalWrite c s.dev.mgmt.settings.burstOrder = e) (hpart : e.part = s.dev.part)
    (hport : e.port = s.dev.port) : exec (.hostWrite c) s = .next (s.withDev e) := by
  subst h
  rw [exec_hostWrite hl, takeCycle_unported he hs hpart hport]
  rfl

/-- A WRITE whose evaluation keeps the part ends with a grant moment. -/
theorem exec_hostWrite_granted {c : WriteCycle} {s : State} {e : Device} (he : s.evaluates)
    (hl : c.data.length = c.blen.beats)
    (h : s.dev.arrived.evalWrite c s.dev.mgmt.settings.burstOrder = e) (hpart : e.part = s.dev.part) :
    exec (.hostWrite c) s = .next (s.withDev e.grant) := by
  subst h
  rw [exec_hostWrite hl, takeCycle_granted he hpart]
  rfl

/-- Settles O26: the checks in their order, each refusing before the next is made. -/
theorem writeRefused : Obligations.WriteRefused := by
  intro c s he hs hl refused st line
  have refuses : ∀ code, s.dev.arrived.evalWrite c s.dev.mgmt.settings.burstOrder
      = s.dev.arrived.refuseWrite c code → refused code := fun code h =>
    exec_hostWrite_unported he hs hl h rfl rfl
  refine ⟨fun h => refuses _ (evalWrite_badTag h), fun ht h => refuses _ (evalWrite_outside ht (classify_outside h)),
    fun ht h hc => refuses _ (evalWrite_protected ht (classify_protected h hc)),
    fun view ht h => refuses _ (evalWrite_readonly ht h), fun mode view ht hc hm hne => ?_⟩
  have hw : writtenWords c s.dev.mgmt.settings.burstOrder ≠ [] := writtenWords_ne_nil _ hl hne
  refine ⟨fun e ho hf hlive => refuses _ ?_, fun ho hstrict hx => refuses _ ?_, fun x hx ho hstate => refuses _ ?_⟩
  · exact (evalWrite_foreign (d := s.dev.arrived) ht hc hm hw ho hf).trans (if_pos ((live_iff _).mpr hlive))
  · exact (evalWrite_untagged (d := s.dev.arrived) hc hm hw hx ho).trans (if_pos hstrict)
  · rw [evalWrite_journalled (d := s.dev.arrived) ht hc hm hw,
      admitJournalled_own fun e he => (ho e he).symm ▸ hx, admitByTag_tagged hx]
    exact if_neg hstate

/-- Settles O27: the waits of a WRITE that passes its checks, and the writes that find no room. -/
theorem writeNotAdmitted : Obligations.WriteNotAdmitted := by
  refine ⟨fun c s mode view he hs hl ht hc hro => ?_, fun c s mode view x he hs hl hc hm hne hx hstate => ?_⟩
  · intro line cycle written
    have waits : ∀ w, s.dev.arrived.evalWrite c s.dev.mgmt.settings.burstOrder = s.dev.arrived.waitOn cycle w →
        exec (.hostWrite c) s = .next (s.waitingOn cycle w) := fun w h => by
      rw [← withDev_waitOn_arrived he]
      exact exec_hostWrite_unported he hs hl h rfl rfl
    refine ⟨fun hone hlanes => ?_, fun hne => ?_⟩
    · have hempty : writtenWords c s.dev.mgmt.settings.burstOrder = [] := by
        rw [writtenWords_of_single _ hone, if_pos hlanes]
      exact exec_hostWrite_unported he hs hl (evalWrite_empty (d := s.dev.arrived) ht hc hro hempty) rfl rfl
    · have hw : writtenWords c s.dev.mgmt.settings.burstOrder ≠ [] := writtenWords_ne_nil _ hl hne
      have hmode : mode ≠ .pass → mode = .journal ∨ mode = .strict := fun hp => by
        cases mode with
        | pass => exact absurd rfl hp
        | readonly => exact absurd rfl hro
        | journal => exact Or.inl rfl
        | strict => exact Or.inr rfl
      refine ⟨fun hp e ho hf h1 h2 => waits _ ?_, fun hq hplain => waits _ ?_,
        fun hq hp x hx hstate ho hroom hown => waits _ ?_⟩
      · refine (evalWrite_foreign (d := s.dev.arrived) ht hc (hmode hp) hw ho hf).trans (if_neg ?_)
        rw [live_iff]
        exact fun k => k.elim h1 h2
      · rcases hplain with rfl | ⟨rfl, hx, ho⟩
        · exact (evalWrite_pass (d := s.dev.arrived) ht hc hw).trans (admitEntry_full _ hq)
        · exact ((evalWrite_untagged (d := s.dev.arrived) hc (Or.inl rfl) hw hx ho).trans (if_neg (by decide))).trans
            (admitEntry_full _ hq)
      · rw [evalWrite_tagged (d := s.dev.arrived) hc (hmode hp) hw hx hstate ho]
        cases howner : s.dev.arrived.ownerOf line with
        | some e =>
          rw [admitTagged_owned howner]
          split
          · exact admitEntry_full _ hq
          · next hneed =>
            exact admitLogged_full (hroom fun e' he' => by
              rwa [Option.some.inj (he'.symm.trans howner)]) hq
        | none =>
          have hroom' : (14 : Int) ≤ s.dev.arrived.free :=
            hroom fun e' he' => absurd (he'.symm.trans howner) (by simp)
          have hfew : ¬ 128 ≤ s.dev.arrived.own.length := not_le.mpr (hown howner)
          rw [admitTagged_unowned howner, if_neg hfew]
          exact admitLogged_full hroom' hq
  · intro owner written spoiled
    have hw : writtenWords c s.dev.mgmt.settings.burstOrder ≠ [] := writtenWords_ne_nil _ hl hne
    have spoils : ∀ cause, s.dev.arrived.evalWrite c s.dev.mgmt.settings.burstOrder
        = Device.refuseWrite (s.dev.arrived.spoil x cause) c .noRoom → spoiled cause := fun cause h =>
      ⟨s.dev.spoil x cause, exec_hostWrite_unported he hs hl h rfl rfl, spoil_frame _ _ _,
        fun y hy => Device.ctx_modifyCtx_ne _ _ _ _ hy, Device.ctx_modifyCtx _ _ _⟩
    have tagged : (∀ e, owner = some e → e.ctx = x) → s.dev.arrived.evalWrite c s.dev.mgmt.settings.burstOrder
        = s.dev.arrived.admitTagged c s.dev.mgmt.settings.burstOrder x :=
      evalWrite_tagged (d := s.dev.arrived) hc hm hw hx hstate
    refine ⟨fun ho hfull => spoils _ ?_, fun hown hneed hfree hno => spoils _ ?_⟩
    · rw [tagged fun e k => absurd (ho.symm.trans k) (by simp), admitTagged_unowned (d := s.dev.arrived) ho]
      exact if_pos hfull
    · have hlow : s.dev.arrived.free < 14 := hfree
      have hnot : ¬ s.dev.arrived.reclaimPossible = true := mt (reclaimPossible_iff s.dev.arrived).mp hno
      have hrefuse : ∀ needed, s.dev.arrived.admitLogged c s.dev.mgmt.settings.burstOrder x needed
          = Device.refuseWrite (s.dev.arrived.spoil x .journalFull) c .noRoom := fun needed =>
        (admitLogged_noRoom hlow).trans (if_neg hnot)
      rw [tagged fun e k => (hneed e k).1]
      cases howner : s.dev.arrived.ownerOf (lineOf c.addr.toNat) with
      | some e =>
        rw [admitTagged_owned howner, if_neg (hneed e howner).2]
        exact hrefuse _
      | none =>
        have hfew : ¬ 128 ≤ s.dev.arrived.own.length := not_le.mpr (hown howner)
        rw [admitTagged_unowned howner, if_neg hfew]
        exact hrefuse _

end Sys2Proof.Machine
end

section
/-! The WRITEs that are admitted: PLAIN, COVERED and LOGGED entries, and what an engine in each state makes of them
(R26-R28, R69-R73, R86-R91). -/

namespace Sys2Proof.Machine

/-! ### A cycle answered behind the entry that it placed -/

theorem arrived_host_answered {s : State} {m : Device} (h : m.host = s.dev.arrived.host) (r : Rsp) (ws : List Word) :
    (m.answer r ws).host = { s.dev.host with mode := .idle, answer := some { code := r, data := ws } } := by
  change ({ m.host with mode := _, answer := _ } : HostPort) = _
  rw [h]
  rfl

/-- The block `x` has the engine, the queue, the port and the part as the state `s` found them. -/
structure SameAtWork (s : State) (x : Device) : Prop where
  engine : x.engine = s.dev.engine
  queue : x.queue = s.dev.queue
  port : x.port = s.dev.port
  part : x.part = s.dev.part

/-- What placing the entry and answering OKAY leave unchanged. -/
theorem placed_answered_frame {s : State} {m : Device} {bs cs : List Block} (h : unchangedBut bs s.dev.arrived m)
    (hb : ∀ b ∈ bs, b ∈ cs) (hc : ∀ b ∈ [Block.host, .engine, .port], b ∈ cs) (r : Rsp) (ws : List Word) :
    unchangedBut cs s.dev (m.answer r ws).grant := by
  have harrived : unchangedBut cs s.dev s.dev.arrived := (host_frame s.dev _).mono fun b k => hc b (by simp_all)
  have hanswer : unchangedBut cs m (m.answer r ws) := (answer_frame m r ws).mono fun b k => hc b (by simp_all)
  have hgrant : unchangedBut cs (m.answer r ws) (m.answer r ws).grant :=
    (grant_frame _).mono fun b k => hc b (List.mem_cons_of_mem _ k)
  exact ((harrived.trans (h.mono hb)).trans hanswer).trans hgrant

theorem sameAtWork_arrived (s : State) : SameAtWork s s.dev.arrived := ⟨rfl, rfl, rfl, rfl⟩

section
variable {s : State} {x : Device} (h : SameAtWork s x) (hs : SettledInv s) (e : QEntry) (r : Rsp) (ws : List Word)
include h hs

theorem SameAtWork.idle_queue : x.engine = .idle → x.queue = [] := fun k => h.queue.trans (hs.2.2 (h.engine ▸ k))

/-- With the engine at work the entry brings no request, and nothing is left to grant. -/
theorem SameAtWork.grant_busy (hb : s.dev.engine ≠ .idle) :
    ((x.placeEntry e).answer r ws).grant = (x.placeEntry e).answer r ws := by
  have hx : x.engine ≠ .idle := h.engine ▸ hb
  have hp : (x.placeEntry e).port = x.port := placeEntry_frame_of_busy (d := x) e hx .port (by decide)
  exact grant_stable hs.grant (hp.trans h.port)

theorem SameAtWork.port_busy (hb : s.dev.engine ≠ .idle) :
    ((x.placeEntry e).answer r ws).grant.port = s.dev.port := by
  have hx : x.engine ≠ .idle := h.engine ▸ hb
  have hp : (x.placeEntry e).port = x.port := placeEntry_frame_of_busy (d := x) e hx .port (by decide)
  rw [h.grant_busy hs e r ws hb]
  exact hp.trans h.port

theorem SameAtWork.engine_busy (hb : s.dev.engine ≠ .idle) (hg : ∀ g, s.dev.engine ≠ .gather g) :
    ((x.placeEntry e).answer r ws).grant.engine = s.dev.engine := by
  rw [h.grant_busy hs e r ws hb]
  exact (placeEntry_engine_of_other e (by rwa [h.engine]) (by rwa [h.engine])).trans h.engine

theorem SameAtWork.gathers {g0 : Group} {w0 : LineWrite} {x0 : Ctx} {i0 : Word} {n0 : WordSet} {more : List QEntry}
    (hg : s.dev.engine = .gather g0) (hq : s.dev.queue = .logged w0 x0 i0 n0 :: more) :
    ∃ g, ((x.placeEntry e).answer r ws).grant.engine = .gather g
      ∧ gatheredFrom ((x.placeEntry e).answer r ws).grant.queue g := by
  rw [h.grant_busy hs e r ws (by rw [hg]; simp)]
  exact placeEntry_gathers e (h.engine.trans hg) (h.queue.trans hq)

omit hs in
theorem SameAtWork.portKept_placed : portKept s.dev ((x.placeEntry e).answer r ws).grant := by
  have hgrows : PortGrows s.dev ((x.placeEntry e).answer r ws) :=
    ((placeEntry_grows x e).of_start h.port).then_port rfl
  exact hgrows.kept.trans (grant_portKept _)

/-- An idle engine that takes up a data write asks for it, and no grant changes the engine. -/
theorem SameAtWork.data_idle {w : LineWrite} (hi : s.dev.engine = .idle)
    (hdata : engineTook [e] (x.entered e) (x.placeEntry e) → (x.placeEntry e).engine = .data
      ∧ .write .data w ∈ (x.placeEntry e).port.asked) :
    ((x.placeEntry e).answer r ws).grant.engine = .data
      ∧ .write .data w ∈ ((x.placeEntry e).answer r ws).grant.port.asked := by
  have hidle := h.engine.trans hi
  obtain ⟨heng, hask⟩ := hdata (placeEntry_took_of_idle e hidle (h.idle_queue hs hidle))
  refine ⟨(grant_engine ?_).trans heng, (mem_asked_grant (by simp)).mpr hask⟩
  exact fun g k => absurd (heng.symm.trans k) (by simp)

/-- An idle engine that takes up a LOGGED entry gathers; the group is fixed where its old-line read is granted now (R91). -/
theorem SameAtWork.logged_idle {w : LineWrite} {c : Ctx} {i : Word} {n : WordSet} (hi : s.dev.engine = .idle)
    (he : e = .logged w c i n) :
    .read .oldLine w.line ∈ ((x.placeEntry e).answer r ws).grant.port.asked
      ∧ ∃ g, gatheredFrom ((x.placeEntry e).answer r ws).grant.queue g
        ∧ ((x.placeEntry e).answer r ws).grant.engine
          = if s.dev.port.state = .active ∧ s.dev.port.inFlight = none then .oldRead g else .gather g := by
  subst he
  have hidle := h.engine.trans hi
  have hempty := h.idle_queue hs hidle
  obtain ⟨hp, hqueue⟩ := placeEntry_of_idle (.logged w c i n) hidle hempty
  let g := (headGroup w c i n).extend []
  have hnext : x.placeEntry (.logged w c i n)
      = Device.request { x.entered (.logged w c i n) with engine := .gather g } (.read .oldLine w.line) :=
    hp.trans (engineNext_logged hqueue)
  have hask : .read .oldLine w.line ∈ (x.placeEntry (.logged w c i n)).port.asked := by
    rw [hnext]
    exact asked_request _ _
  have hgather : gatheredFrom [.logged w c i n] g := headGroup_gathered _ _ _ _ _
  have heng : (x.placeEntry (.logged w c i n)).engine = .gather g := by
    rw [hnext]
    rfl
  let m := (x.placeEntry (.logged w c i n)).answer r ws
  have hmport : m.port = { s.dev.port with waiting := s.dev.port.waiting ++ [.read .oldLine w.line] } := by
    change (x.placeEntry (.logged w c i n)).port = _
    rw [hnext, ← h.port, ← entered_port x (.logged w c i n)]
    rfl
  have hgq : m.grant.queue = [.logged w c i n] := by
    rw [grant_frame m .queue (by decide)]
    change (x.placeEntry (.logged w c i n)).queue = _
    rw [placeEntry_queue, hempty]
    rfl
  refine ⟨(mem_asked_grant (d := m) (by simp)).mpr hask, g, by rw [hgq]; exact hgather, ?_⟩
  by_cases hfree : s.dev.port.state = .active ∧ s.dev.port.inFlight = none
  · rw [if_pos hfree]
    obtain ⟨hact, hnone⟩ := hfree
    obtain ⟨hw, ho⟩ : s.dev.port.waiting = [] ∧ s.dev.port.owed = 0 :=
      (((grant_eq_self_iff _).mp hs.grant).resolve_left fun k => k hact).resolve_left fun k => k hnone
    have hreq : m.port.requests = [.read .oldLine w.line] := by
      unfold MemPort.requests
      rw [hmport, ho, hw]
      exact if_neg (lt_irrefl 0)
    rcases grant_cases m with hm | ⟨a, ha, _, _, hm⟩
    · have hquiet := (grant_eq_self_iff m).mp hm
      rw [hmport] at hquiet
      exact absurd hquiet (by simp [quietPort, hact, hnone])
    · rw [hreq, List.mem_singleton] at ha
      change m.grant.engine = _
      rw [hm, ha]
      change (x.placeEntry (.logged w c i n)).engine.onGrant (.read .oldLine w.line) = _
      rw [heng]
      rfl
  · rw [if_neg hfree]
    have hquiet : quietPort m.port := by
      rw [hmport]
      by_cases hact : s.dev.port.state = .active
      · exact Or.inr (Or.inl fun k => hfree ⟨hact, k⟩)
      · exact Or.inl hact
    change m.grant.engine = _
    rw [(grant_eq_self_iff m).mpr hquiet]
    exact heng

end

/-! ### Plain writes -/

/-- Settles O28: the entry is placed behind the others, and only an idle engine asks for its write. -/
theorem plainWriteAdmitted : Obligations.PlainWriteAdmitted := by
  intro c s mode view he hs hl ht hc hne hmode hq w
  have hw : writtenWords c s.dev.mgmt.settings.burstOrder ≠ [] := writtenWords_ne_nil _ hl hne
  have hx := sameAtWork_arrived s
  let m := s.dev.arrived.placeEntry (.plain w)
  have heval : s.dev.arrived.evalWrite c s.dev.mgmt.settings.burstOrder = m.answer .okay [] := by
    refine Eq.trans ?_ (admitEntry_placed (d := s.dev.arrived) (c := c) (o := s.dev.mgmt.settings.burstOrder) (.plain w) hq)
    rcases hmode with rfl | ⟨rfl, hlines, ho⟩
    · exact evalWrite_pass (d := s.dev.arrived) ht hc hw
    · exact (evalWrite_untagged (d := s.dev.arrived) hc (Or.inl rfl) hw hlines ho).trans (if_neg (by decide))
  have hm : unchangedBut [.queue, .engine, .port] s.dev.arrived m := placeEntry_frame_of_plain (hx.idle_queue hs)
  have hframe : unchangedBut [.host, .queue, .engine, .port] s.dev (m.answer .okay []).grant :=
    placed_answered_frame hm (by decide) (by decide) _ _
  refine ⟨_, exec_hostWrite_granted he hl heval (hm .part (by decide)), hframe, ?_, ?_, hx.portKept_placed _ _ _,
    fun hi => hx.data_idle hs _ _ _ hi id, hx.port_busy hs _ _ _, hx.engine_busy hs _ _ _,
    fun _ _ _ _ _ _ hg hqueue => hx.gathers hs _ _ _ hg hqueue⟩
  · exact Eq.trans (grant_frame _ .host (by decide)) (arrived_host_answered (hm .host (by decide)) _ _)
  · exact Eq.trans (grant_frame _ .queue (by decide)) (placeEntry_queue _ _)

/-! ### The ownership table -/

theorem mem_setWords {m : WordSet} {i : Fin 8} : i ∈ setWords m ↔ m.getLsbD i.val = true := by simp [setWords]

theorem foldl_pending_getElem (l : List (Fin 8)) (v : Vector (Option Locator) 8) (i : Fin 8) :
    (l.foldl (fun v i => v.set i.val (some Locator.pending) i.isLt) v)[i]
      = if i ∈ l then some Locator.pending else v[i] := by
  induction l generalizing v with
  | nil => simp
  | cons j l ih =>
    rw [List.foldl_cons, ih]
    by_cases hi : i ∈ l
    · simp [hi]
    · by_cases hj : i = j
      · subst hj
        simp [hi]
      · have hval : j.val ≠ i.val := fun k => hj (Fin.ext k.symm)
        simp [hi, hj, Fin.getElem_fin, Vector.getElem_set_ne _ _ hval]

/-- The words that a write needs get pending locators, and the others stand (R72, R73). -/
theorem withPending_words (e : OwnEntry) (m : WordSet) (i : Fin 8) :
    (e.withPending m).words[i] = if m.getLsbD i.val = true then some Locator.pending else e.words[i] := by
  change ((setWords m).foldl _ e.words)[i] = _
  rw [foldl_pending_getElem]
  simp only [mem_setWords]

theorem logWords_owned {d : Device} {line : Nat} {e : OwnEntry} (h : d.ownerOf line = some e) (c : Ctx) (i : Word)
    (m : WordSet) : d.logWords line c i m
      = { d with own := d.own.map fun o => if o.line = line then o.withPending m else o } := by
  simp only [Device.logWords, h]

/-- The entry of a line that a write needs words of, before which it had no owner. -/
def newOwnEntry (line : Nat) (c : Ctx) (i : Word) (m : WordSet) : OwnEntry :=
  OwnEntry.withPending { line := line, ctx := c, inst := i, words := Vector.replicate 8 none } m

theorem logWords_unowned {d : Device} {line : Nat} (h : d.ownerOf line = none) (c : Ctx) (i : Word) (m : WordSet) :
    d.logWords line c i m = Device.modifyCtx { d with own := d.own ++ [newOwnEntry line c i m] } c
      fun x => { x with owned := x.owned + 1 } := by
  simp only [Device.logWords, h, newOwnEntry]

/-! ### Tagged writes -/

/-- The words are logged and the room for their record is reserved. -/
def Device.loggedFor (d : Device) (line : Nat) (c : Ctx) (i : Word) (m : WordSet) : Device :=
  (d.logWords line c i m).reserve 14

theorem loggedFor_frame (d : Device) (line : Nat) (c : Ctx) (i : Word) (m : WordSet) :
    unchangedBut [.own, .contexts, .journal, .mgmt] d (d.loggedFor line c i m) :=
  (logWords_frame d line c i m).comp (reserve_frame _ _) (by decide) (by decide)

theorem loggedFor_contexts (d : Device) (line : Nat) (c : Ctx) (i : Word) (m : WordSet) :
    (d.loggedFor line c i m).contexts = (d.logWords line c i m).contexts := reserve_frame _ _ .contexts (by decide)

theorem loggedFor_own (d : Device) (line : Nat) (c : Ctx) (i : Word) (m : WordSet) :
    (d.loggedFor line c i m).own = (d.logWords line c i m).own := reserve_frame _ _ .own (by decide)

theorem loggedFor_journal (d : Device) (line : Nat) (c : Ctx) (i : Word) (m : WordSet) :
    (d.loggedFor line c i m).journal = { d.journal with reserved := d.journal.reserved + 14 } := by
  have hj : (d.logWords line c i m).journal = d.journal := logWords_frame d line c i m .journal (by decide)
  unfold Device.loggedFor
  rw [reserve_journal, hj]

theorem loggedFor_mgmt (d : Device) (line : Nat) (c : Ctx) (i : Word) (m : WordSet) :
    (d.loggedFor line c i m).mgmt = d.mgmt.withCauses
      (d.lowCauses d.journal { d.journal with reserved := d.journal.reserved + 14 } d.mgmt.causes) := by
  have f := logWords_frame d line c i m
  have hj : (d.logWords line c i m).journal = d.journal := f .journal (by decide)
  have hm : (d.logWords line c i m).mgmt = d.mgmt := f .mgmt (by decide)
  unfold Device.loggedFor
  rw [reserve_mgmt, hj, hm]
  exact congrArg d.mgmt.withCauses
    (lowCauses_congr _ (f .part (by decide)) (by rw [hm]) rfl ⟨rfl, rfl, rfl⟩ ⟨rfl, rfl, rfl⟩)

/-- Settles O29: a write whose words are all logged is COVERED, every other admitted one LOGGED. -/
theorem taggedWriteAdmitted : Obligations.TaggedWriteAdmitted := by
  refine ⟨getLsbD_wordSetOf, getLsbD_logged, ctxOfLines_iff,
    fun d line => ⟨ownerOf_eq_none d line, fun e => ownerOf_eq_some, free_eq d⟩, ?_⟩
  intro c s mode view x he hs hl hc hm hne hx hstate hq w written inst gathers logged
  have hw : writtenWords c s.dev.mgmt.settings.burstOrder ≠ [] := writtenWords_ne_nil _ hl hne
  have tagged : (∀ e, s.dev.ownerOf w.line = some e → e.ctx = x) →
      s.dev.arrived.evalWrite c s.dev.mgmt.settings.burstOrder
        = s.dev.arrived.admitTagged c s.dev.mgmt.settings.burstOrder x :=
    evalWrite_tagged (d := s.dev.arrived) hc hm hw hx hstate
  have placed : ∀ {y : Device} (e : QEntry), SameAtWork s y → gathers ((y.placeEntry e).answer .okay []).grant :=
    fun e hy => ⟨fun _ _ _ _ _ _ hg hqueue => hy.gathers hs e _ _ hg hqueue, hy.engine_busy hs e _ _,
      hy.port_busy hs e _ _⟩
  have loggedAt : ∀ needed : WordSet,
      let y := s.dev.arrived.loggedFor w.line x inst needed
      let d := ((y.placeEntry (.logged w x inst needed)).answer .okay []).grant
      (∀ z, z ≠ x → y.ctx z = s.dev.ctx z) → logged needed d ∧ d.own = y.own
        ∧ d.ctx x = { y.ctx x with queued := (y.ctx x).queued + 1 } := by
    intro needed y d hothers
    have hy : unchangedBut [.own, .contexts, .journal, .mgmt] s.dev.arrived y := loggedFor_frame _ _ _ _ _
    have hwork : SameAtWork s y := ⟨hy .engine (by decide), hy .queue (by decide), hy .port (by decide),
      hy .part (by decide)⟩
    let e : QEntry := .logged w x inst needed
    have hplace : unchangedBut [.queue, .contexts, .engine, .port] y (y.placeEntry e) :=
      placeEntry_frame_of_write rfl (hwork.idle_queue hs)
    have hgrant := grant_frame ((y.placeEntry e).answer .okay [])
    have hctx : ∀ z, d.ctx z = (y.placeEntry e).ctx z := Device.ctx_congr (hgrant .contexts (by decide))
    have hboth : unchangedBut [.own, .contexts, .journal, .mgmt, .queue, .engine, .port] s.dev.arrived (y.placeEntry e) :=
      hy.comp hplace (by decide) (by decide)
    have hframe : unchangedBut [.host, .contexts, .own, .queue, .engine, .journal, .port, .mgmt] s.dev d :=
      placed_answered_frame hboth (by decide) (by decide) _ _
    refine ⟨⟨hframe, ?_, ?_, ?_, fun z hz => ?_, hwork.portKept_placed _ _ _, ?_,
      fun hi => hwork.logged_idle hs e _ _ hi rfl, placed e hwork⟩, ?_, ?_⟩
    · exact Eq.trans (hgrant .host (by decide))
        (arrived_host_answered (Eq.trans (hplace .host (by decide)) (hy .host (by decide))) _ _)
    · exact Eq.trans (hgrant .queue (by decide))
        ((placeEntry_queue y e).trans (congrArg (· ++ [e]) (hy .queue (by decide))))
    · exact Eq.trans (hgrant .journal (by decide))
        (Eq.trans (hplace .journal (by decide)) (loggedFor_journal s.dev.arrived _ _ _ _))
    · rw [hctx, placeEntry_otherContexts rfl z hz, hothers z hz]
    · have hmgmt : d.mgmt = y.mgmt := Eq.trans (hgrant .mgmt (by decide)) (hplace .mgmt (by decide))
      have hjournal : d.journal = y.journal := Eq.trans (hgrant .journal (by decide)) (hplace .journal (by decide))
      rw [hmgmt, hjournal, loggedFor_mgmt, loggedFor_journal]
      rfl
    · exact Eq.trans (hgrant .own (by decide)) (hplace .own (by decide))
    · rw [hctx, placeEntry_ctx rfl]
  refine ⟨fun e ho hown hnone => ?_, fun e ho hown hneed hfree => ?_, fun ho hfew hfree => ?_⟩
  · have hwork := sameAtWork_arrived s
    let q : QEntry := .covered w x inst
    have heval : s.dev.arrived.evalWrite c s.dev.mgmt.settings.burstOrder
        = (s.dev.arrived.placeEntry q).answer .okay [] := by
      rw [tagged fun e' he' => Option.some.inj (ho.symm.trans he') ▸ hown, admitTagged_owned (d := s.dev.arrived) ho]
      exact (if_pos hnone).trans (admitEntry_placed (d := s.dev.arrived) q hq)
    have hplace : unchangedBut [.queue, .contexts, .engine, .port] s.dev.arrived (s.dev.arrived.placeEntry q) :=
      placeEntry_frame_of_write rfl (hwork.idle_queue hs)
    have hgrant := grant_frame ((s.dev.arrived.placeEntry q).answer .okay [])
    have hctx : ∀ z, ((s.dev.arrived.placeEntry q).answer .okay []).grant.ctx z = (s.dev.arrived.placeEntry q).ctx z :=
      Device.ctx_congr (hgrant .contexts (by decide))
    have hframe : unchangedBut [.host, .contexts, .queue, .engine, .port] s.dev
        ((s.dev.arrived.placeEntry q).answer .okay []).grant :=
      placed_answered_frame hplace (by decide) (by decide) _ _
    refine ⟨_, exec_hostWrite_granted he hl heval (hplace .part (by decide)), hframe, ?_, ?_, ?_, fun z hz => ?_,
      hwork.portKept_placed _ _ _, fun hi => hwork.data_idle hs _ _ _ hi id, placed q hwork⟩
    · exact Eq.trans (hgrant .host (by decide)) (arrived_host_answered (hplace .host (by decide)) _ _)
    · exact Eq.trans (hgrant .queue (by decide)) (placeEntry_queue _ _)
    · rw [hctx, placeEntry_ctx rfl]
      rfl
    · rw [hctx, placeEntry_otherContexts rfl z hz]
      rfl
  · let needed := written &&& ~~~ e.logged
    have hown' : s.dev.arrived.logWords w.line x inst needed = _ := logWords_owned (d := s.dev.arrived) ho _ _ _
    have heval : s.dev.arrived.evalWrite c s.dev.mgmt.settings.burstOrder
        = ((s.dev.arrived.loggedFor w.line x inst needed).placeEntry (.logged w x inst needed)).answer .okay [] := by
      rw [tagged fun e' he' => Option.some.inj (ho.symm.trans he') ▸ hown, admitTagged_owned (d := s.dev.arrived) ho]
      exact (if_neg hneed).trans (admitLogged_placed (d := s.dev.arrived) hfree hq)
    have hctx : ∀ z, (s.dev.arrived.loggedFor w.line x inst needed).ctx z = s.dev.ctx z := fun z => by
      rw [Device.ctx_congr (loggedFor_contexts _ _ _ _ _), hown']
      rfl
    obtain ⟨hlog, hdown, hdctx⟩ := loggedAt needed fun z _ => hctx z
    refine ⟨_, exec_hostWrite_granted he hl heval ?_, hlog, ?_, ?_⟩
    · exact (grant_frame _ .part (by decide)).symm.trans (hlog.1 .part (by decide))
    · rw [hdctx, hctx]
    · rw [hdown, loggedFor_own, hown']
      rfl
  · let e := newOwnEntry w.line x inst written
    have hnew : s.dev.arrived.logWords w.line x inst written = _ := logWords_unowned (d := s.dev.arrived) ho _ _ _
    have heval : s.dev.arrived.evalWrite c s.dev.mgmt.settings.burstOrder
        = ((s.dev.arrived.loggedFor w.line x inst written).placeEntry (.logged w x inst written)).answer .okay [] := by
      have hroom : ¬ 128 ≤ s.dev.arrived.own.length := not_le.mpr hfew
      rw [tagged fun e' he' => absurd (ho.symm.trans he') (by simp), admitTagged_unowned (d := s.dev.arrived) ho]
      exact (if_neg hroom).trans (admitLogged_placed (d := s.dev.arrived) hfree hq)
    have hctx : (s.dev.arrived.loggedFor w.line x inst written).ctx x
        = { s.dev.ctx x with owned := (s.dev.ctx x).owned + 1 } := by
      rw [Device.ctx_congr (loggedFor_contexts _ _ _ _ _), hnew, Device.ctx_modifyCtx]
      rfl
    have hothers : ∀ z, z ≠ x → (s.dev.arrived.loggedFor w.line x inst written).ctx z = s.dev.ctx z := fun z hz => by
      rw [Device.ctx_congr (loggedFor_contexts _ _ _ _ _), hnew, Device.ctx_modifyCtx_ne _ _ _ _ hz]
      rfl
    obtain ⟨hlog, hdown, hdctx⟩ := loggedAt written hothers
    refine ⟨_, e, exec_hostWrite_granted he hl heval ?_, hlog, ?_, ?_, rfl, rfl, rfl, fun i => ?_⟩
    · exact (grant_frame _ .part (by decide)).symm.trans (hlog.1 .part (by decide))
    · rw [hdctx, hctx]
    · rw [hdown, loggedFor_own, hnew]
      rfl
    · refine (withPending_words _ _ i).trans ?_
      simp

end Sys2Proof.Machine
end

section
/-! The marks that their tests turn away, and those that the OPEN and COMMIT records follow (R33, R43-R46, R88, R129). -/

namespace Sys2Proof.Machine

/-! ### What a mark's address names -/

theorem markKind_iff (addr : Word) (k : MarkKind) : markKind addr = some k ↔ addr.toNat / 256 % 8 = match k with
    | .openKind => 1
    | .commitKind => 2
    | .abandonKind => 3
    | .renewKind => 4
    | .queryKind => 5 := by
  have hfield : (addr.extractLsb' 8 3).toNat = addr.toNat / 256 % 8 := by
    simp [BitVec.extractLsb'_toNat, Nat.shiftRight_eq_div_pow]
  have codes : ∀ b : BitVec 3, (if b = 1 then some MarkKind.openKind else if b = 2 then some .commitKind
      else if b = 3 then some .abandonKind else if b = 4 then some .renewKind
      else if b = 5 then some .queryKind else none) = some k ↔ b.toNat = match k with
    | .openKind => 1
    | .commitKind => 2
    | .abandonKind => 3
    | .renewKind => 4
    | .queryKind => 5 := by
    cases k <;> decide
  rw [← hfield]
  exact codes _

theorem markCtxField_toNat (addr : Word) : (markCtxField addr).toNat = addr.toNat % 8 := by
  simp [markCtxField, BitVec.extractLsb'_toNat]

theorem markRequest_iff (addr : Word) (k : MarkKind) (c : Ctx) :
    markRequest addr = some (k, c) ↔ markKind addr = some k ∧ ctxOfLines (markCtxField addr) = some c := by
  unfold markRequest
  cases markKind addr <;> cases ctxOfLines (markCtxField addr) <;> simp

theorem markNamesNothing_of {addr : Word} (h : addr.extractLsb' 8 3 ∈ [0#3, 6#3, 7#3]
    ∨ addr.extractLsb' 0 3 ∈ [0#3, 5#3, 6#3, 7#3]) : markNamesNothing addr = true := by
  have kinds : ∀ b : BitVec 3, b ∈ [0#3, 6#3, 7#3] → (if b = 1 then some MarkKind.openKind
      else if b = 2 then some .commitKind else if b = 3 then some .abandonKind else if b = 4 then some .renewKind
      else if b = 5 then some .queryKind else none) = none := by decide
  have contexts : ∀ b : BitVec 3, b ∈ [0#3, 5#3, 6#3, 7#3] → ctxOfLines b = none := by decide
  unfold markNamesNothing
  rw [Option.isNone_iff_eq_none, Option.eq_none_iff_forall_ne_some]
  intro ⟨k, c⟩ hm
  obtain ⟨hk, hc⟩ := (markRequest_iff addr k c).mp hm
  rcases h with h | h
  · exact absurd (hk.symm.trans (kinds _ h)) (by simp)
  · exact absurd (hc.symm.trans (contexts _ h)) (by simp)

/-! ### The evaluations, test by test -/

section
variable {d : Device} {c : Ctx}

theorem evalOpen_busy (h : (d.ctx c).state ≠ .free) : d.evalOpen c = d.reply c .busy := if_pos h

theorem evalOpen_unavailable (h : (d.ctx c).state = .free) (hj : d.journal.cond ≠ .valid) :
    d.evalOpen c = d.reply c .unavailable := by
  unfold Device.evalOpen
  rw [if_neg (not_not.mpr h), if_pos hj]

theorem evalOpen_deferred (h : (d.ctx c).state = .free) (hj : d.journal.cond = .valid)
    (ha : d.regions.applyWaiting = true) : d.evalOpen c = d.reply c .deferred := by
  unfold Device.evalOpen
  rw [if_neg (not_not.mpr h), if_neg (not_not.mpr hj), if_pos ha]

/-- The tests of an OPEN that are left behind the state, the condition and a waiting APPLY. -/
theorem evalOpen_byRoom (h : (d.ctx c).state = .free) (hj : d.journal.cond = .valid)
    (ha : d.regions.applyWaiting = false) : d.evalOpen c =
      if d.free < 12 then
        if d.reclaimPossible then Device.requestReclaim (d.waitOn (.openMark c) .journalRoom) else d.reply c .noRoom
      else if d.queueFull then d.waitOn (.openMark c) .queueSpace
      else d.admitOpen c := by
  unfold Device.evalOpen
  rw [if_neg (not_not.mpr h), if_neg (not_not.mpr hj), if_neg (by simp [ha])]
  exact if_congr Iff.rfl rfl rfl

theorem evalOpen_roomWait (h : (d.ctx c).state = .free) (hj : d.journal.cond = .valid)
    (ha : d.regions.applyWaiting = false) (hf : d.free < 12) (hr : d.reclaimPossible = true) :
    d.evalOpen c = Device.requestReclaim (d.waitOn (.openMark c) .journalRoom) := by
  rw [evalOpen_byRoom h hj ha, if_pos hf, if_pos hr]

theorem evalOpen_noRoom (h : (d.ctx c).state = .free) (hj : d.journal.cond = .valid)
    (ha : d.regions.applyWaiting = false) (hf : d.free < 12) (hr : ¬ reclaimRule d) :
    d.evalOpen c = d.reply c .noRoom := by
  rw [evalOpen_byRoom h hj ha, if_pos hf, if_neg (mt (reclaimPossible_iff d).mp hr)]

theorem evalOpen_queueWait (h : (d.ctx c).state = .free) (hj : d.journal.cond = .valid)
    (ha : d.regions.applyWaiting = false) (hf : (12 : Int) ≤ d.free) (hq : 8 ≤ d.queue.length) :
    d.evalOpen c = d.waitOn (.openMark c) .queueSpace := by
  rw [evalOpen_byRoom h hj ha, if_neg (not_lt.mpr hf), if_pos ((queueFull_iff d).mpr hq)]

theorem evalOpen_admitted (h : (d.ctx c).state = .free) (hj : d.journal.cond = .valid)
    (ha : d.regions.applyWaiting = false) (hf : (12 : Int) ≤ d.free) (hq : d.queue.length < 8) :
    d.evalOpen c = d.admitOpen c := by
  rw [evalOpen_byRoom h hj ha, if_neg (not_lt.mpr hf), if_neg fun k => absurd ((queueFull_iff d).mp k) (by omega)]

theorem evalCommit_opened (h : (d.ctx c).state = .opened) :
    d.evalCommit c = if d.queueFull then d.waitOn (.commitMark c) .queueSpace else d.takeCommit c := by
  unfold Device.evalCommit
  rw [h]

theorem evalCommit_spoiled (h : (d.ctx c).state = .spoiled) : d.evalCommit c = d.reply c .refused := by
  unfold Device.evalCommit
  rw [h]

theorem evalCommit_busy (h : (d.ctx c).state = .free ∨ (d.ctx c).state = .closing ∨ (d.ctx c).state = .undoing) :
    d.evalCommit c = d.reply c .busy := by
  unfold Device.evalCommit
  rcases h with h | h | h <;> rw [h]

theorem evalAbandon_live (h : (d.ctx c).state.live = true) :
    d.evalAbandon c = (d.undo c .abandoned).reply c .accepted := if_pos h

theorem evalAbandon_busy (h : (d.ctx c).state.live = false) : d.evalAbandon c = d.reply c .busy := if_neg (by simp [h])

end

/-! ### A mark of a settled part -/

/-- A cycle whose evaluation leaves the part and the port leaves the device as evaluated. -/
theorem cycle_unported {s : State} {o : Host.Outcome State Fault Refusal} {zeros : List Word} {eval : Device → Device}
    {e : Device} (he : s.evaluates) (hs : SettledInv s) (ho : o = .next (s.withDev (s.dev.takeCycle zeros eval)))
    (h : eval s.dev.arrived = e) (hpart : e.part = s.dev.part) (hport : e.port = s.dev.port) :
    o = .next (s.withDev e) := by
  subst h
  rw [ho, takeCycle_unported he hs hpart hport]

/-- A cycle whose evaluation keeps the part ends with a grant moment. -/
theorem cycle_granted {s : State} {o : Host.Outcome State Fault Refusal} {zeros : List Word} {eval : Device → Device}
    {e : Device} (he : s.evaluates) (ho : o = .next (s.withDev (s.dev.takeCycle zeros eval)))
    (h : eval s.dev.arrived = e) (hpart : e.part = s.dev.part) : o = .next (s.withDev e.grant) := by
  subst h
  rw [ho, takeCycle_granted he hpart]

/-- Settles O32: each test that turns a mark away answers or waits before the next one is made. -/
theorem marksTurnedAway : Obligations.MarksTurnedAway := by
  refine ⟨fun addr k c => ?_, fun o m a c s ho hm ha he hs => ?_, fun m s he hs h => ?_⟩
  · rw [markRequest_iff, markKind_iff, ctxOfLines_iff, markCtxField_toNat]
    exact and_comm
  · intro x replied
    have opened : ∀ {e}, s.dev.arrived.evalOpen c = e → e.part = s.dev.part → e.port = s.dev.port →
        exec (.openMark o) s = .next (s.withDev e) := cycle_unported he hs (exec_openMark ho s)
    have commits : ∀ {e}, s.dev.arrived.evalCommit c = e → e.part = s.dev.part → e.port = s.dev.port →
        exec (.commitMark m) s = .next (s.withDev e) := cycle_unported he hs (exec_commitMark hm s)
    refine ⟨fun h => opened (evalOpen_busy (d := s.dev.arrived) h) rfl rfl,
      fun h hj => opened (evalOpen_unavailable (d := s.dev.arrived) h hj) rfl rfl,
      fun h hj hw => opened (evalOpen_deferred (d := s.dev.arrived) h hj hw) rfl rfl,
      fun h hj hw => ⟨fun hf hr => opened (evalOpen_noRoom (d := s.dev.arrived) h hj hw hf hr) rfl rfl, fun hf hq => ?_⟩,
      fun h => commits (evalCommit_spoiled (d := s.dev.arrived) h) rfl rfl,
      fun h => ⟨commits (evalCommit_busy (d := s.dev.arrived) h) rfl rfl,
        cycle_unported he hs (exec_abandonMark ha s)
          (evalAbandon_busy (d := s.dev.arrived) ((live_eq_false_iff _).mpr h)) rfl rfl⟩, fun h hq => ?_⟩
    · rw [← withDev_waitOn_arrived he]
      exact opened (evalOpen_queueWait (d := s.dev.arrived) h hj hw hf hq) rfl rfl
    · have heval : s.dev.arrived.evalCommit c = s.dev.arrived.waitOn (.commitMark c) .queueSpace :=
        (evalCommit_opened (d := s.dev.arrived) h).trans (if_pos ((queueFull_iff s.dev.arrived).mpr hq))
      rw [← withDev_waitOn_arrived he]
      exact commits heval rfl rfl
  · exact cycle_unported he hs (exec_markBadTag (markNamesNothing_of h) s) rfl rfl rfl

end Sys2Proof.Machine
end

section
/-! A context that becomes UNDOING, by an ABANDON or by its lease, and the wait limit (R31, R46, R49-R52, R134, R135). -/

namespace Sys2Proof.Machine

/-! ### What undoing a context does -/

section
variable (d : Device) (c : Ctx) (o : FinishOutcome)

/-- The entry of the instance of a context in the rollback list (R134). -/
def Device.listEntry : ListEntry := { ctx := c, inst := (d.ctx c).inst, outcome := o }

/-- The context UNDOING, before its instance is listed (R46, R52). -/
def Device.undoing : Device :=
  d.modifyCtx c fun x => { x with state := .undoing, lease := x.lease.stop, spoil := none }

theorem undo_eq : d.undo c o = (d.undoing c).appendToList c o := rfl

theorem appendToList_walkChosen :
    walkChosen { d.rollback with list := d.rollback.list ++ [d.listEntry c o] } d (d.appendToList c o) :=
  walkChosen.of_part
    (select_walkChosen { d with rollback := { d.rollback with list := d.rollback.list ++ [d.listEntry c o] } }) rfl

theorem appendToList_port_of_busy (h : d.rollback.state ≠ .idle) : (d.appendToList c o).port = d.port := by
  have hsel : d.appendToList c o
      = { d with rollback := { d.rollback with list := d.rollback.list ++ [d.listEntry c o] } } :=
    select_of_not_idle fun k => h k.1
  rw [hsel]

theorem undoing_ctx : (d.undoing c).ctx c
    = { d.ctx c with state := .undoing, lease := (d.ctx c).lease.stop, spoil := none } := Device.ctx_modifyCtx d c _

theorem undoing_otherContexts : otherContexts c d (d.undoing c) := fun x hx => Device.ctx_modifyCtx_ne d c x _ hx

theorem undoing_listEntry : (d.undoing c).listEntry c o = d.listEntry c o := by
  unfold Device.listEntry
  rw [undoing_ctx]

theorem undo_ctx : (d.undo c o).ctx c
    = { d.ctx c with state := .undoing, lease := (d.ctx c).lease.stop, spoil := none } := by
  rw [undo_eq, Device.ctx_congr (appendToList_frame _ c o .contexts (by decide)), undoing_ctx]

theorem undo_otherContexts : otherContexts c d (d.undo c o) := fun x hx => by
  rw [undo_eq, Device.ctx_congr (appendToList_frame _ c o .contexts (by decide)), undoing_otherContexts d c x hx]

/-- The instance is listed, and the rollback engine chooses from the list with it (R135). -/
theorem undo_walkChosen : walkChosen { d.rollback with list := d.rollback.list ++ [d.listEntry c o] } d (d.undo c o) := by
  have h := appendToList_walkChosen (d.undoing c) c o
  rw [undoing_listEntry] at h
  exact h.of_part rfl

theorem undo_port_of_busy (h : d.rollback.state ≠ .idle) : (d.undo c o).port = d.port :=
  appendToList_port_of_busy (d.undoing c) c o h

end

/-! ### A grant behind one new request -/

/-- Where the arbiter was quiet a grant behind one new request gives that request or nothing. -/
theorem grant_cases_of_quiet {p : MemPort} (hq : quietPort p) {m : Device} {a : Access}
    (hp : m.port = { p with waiting := p.waiting ++ [a] }) : m.grant = m ∨ m.grant.engine = m.engine.onGrant a := by
  rcases hq with hact | hfly | ⟨hw, ho⟩
  · refine Or.inl ((grant_eq_self_iff m).mpr (Or.inl ?_))
    rwa [hp]
  · refine Or.inl ((grant_eq_self_iff m).mpr (Or.inr (Or.inl ?_)))
    rwa [hp]
  · have hreq : m.port.requests = [a] := by
      unfold MemPort.requests
      rw [hp, ho, hw]
      exact if_neg (lt_irrefl 0)
    rcases grant_cases m with hm | ⟨b, hb, _, _, hm⟩
    · exact Or.inl hm
    · rw [hreq, List.mem_singleton] at hb
      rw [hm, hb]
      exact Or.inr rfl

theorem SettledInv.grant_cases_requested {s : State} (hs : SettledInv s) {m : Device} {a : Access}
    (hp : m.port = { s.dev.port with waiting := s.dev.port.waiting ++ [a] }) : m.grant = m ∨
      m.grant.engine = m.engine.onGrant a :=
  grant_cases_of_quiet ((grant_eq_self_iff _).mp hs.grant) hp

/-- Only the grant of the old-line read touches the engine (R91), and a selection asks for another read. -/
theorem SettledInv.grant_engine_of_select {s : State} (hs : SettledInv s) {u m : Device} (hu : u.port = s.dev.port)
    (he : m.engine = s.dev.engine) (hm : m.port = u.select.port) : m.grant.engine = s.dev.engine := by
  rw [← he]
  have still : m.port = s.dev.port → m.grant.engine = m.engine := fun h => by rw [grant_stable hs.grant h]
  by_cases hsel : u.rollback.state = .idle ∧ (u.part.state = .running ∨ u.part.state = .starting)
  · cases helig : u.eligible u.rollback.list with
    | none => exact still (by rw [hm, select_of_none helig, hu])
    | some x =>
      have hport : m.port = { s.dev.port with
          waiting := s.dev.port.waiting ++ [.read .walk (ringLine u.part.straps (x.2 + 0))] } := by
        rw [hm, ← hu]
        unfold Device.select
        rw [if_pos hsel, helig]
        rfl
      rcases hs.grant_cases_requested hport with h | h
      · rw [h]
      · rw [h]
        cases m.engine <;> rfl
  · exact still (by rw [hm, select_of_not_idle hsel, hu])

theorem SettledInv.grant_engine_of_undo {s : State} (hs : SettledInv s) {d m : Device} {c : Ctx} {o : FinishOutcome}
    (hd : d.port = s.dev.port) (he : m.engine = s.dev.engine) (hm : m.port = (d.undo c o).port) :
    m.grant.engine = s.dev.engine :=
  hs.grant_engine_of_select (u := { d.undoing c with rollback :=
    { d.rollback with list := d.rollback.list ++ [(d.undoing c).listEntry c o] } }) hd he hm

theorem unchangedBut.of_engine {l : List Block} {d e : Device} (h : unchangedBut (.engine :: l) d e)
    (he : e.engine = d.engine) : unchangedBut l d e := fun b hb => by
  by_cases hk : b = .engine
  · subst hk
    exact he
  · exact h b fun k => (List.mem_cons.mp k).elim hk hb

/-! ### ABANDON -/

/-- Settles O34: the answer follows the undoing, and behind it the port may grant. -/
theorem abandonTaken : Obligations.AbandonTaken := by
  intro m c s hm he hs hlive e
  let u := s.dev.arrived.undo c .abandoned
  have hu : unchangedBut [.contexts, .rollback, .port] s.dev.arrived u := undo_frame _ _ _
  have hgrant := grant_frame (u.reply c .accepted)
  have hctx : ∀ x, (u.reply c .accepted).grant.ctx x = u.ctx x := Device.ctx_congr (hgrant .contexts (by decide))
  have hbusy : s.dev.rollback.state ≠ .idle → u.port = s.dev.port := undo_port_of_busy s.dev.arrived c _
  have hanswer : unchangedBut [.host] u (u.reply c .accepted) := answer_frame _ _ _
  have hrollback : unchangedBut [.contexts, .host, .rollback, .port] s.dev (u.reply c .accepted) :=
    ((host_frame s.dev _).comp hu (by decide) (by decide) :
      unchangedBut [.contexts, .host, .rollback, .port] s.dev u).comp hanswer (by decide) (by decide)
  have hengine : (u.reply c .accepted).grant.engine = s.dev.engine :=
    hs.grant_engine_of_undo (d := s.dev.arrived) rfl (hu .engine (by decide)) rfl
  refine ⟨_, cycle_granted he (exec_abandonMark hm s)
      (evalAbandon_live (d := s.dev.arrived) ((live_iff _).mpr hlive)) (hu .part (by decide)), ?_, fun x hx => ?_, ?_, ?_,
    ?_, ?_, fun h => ?_⟩
  · exact (hrollback.comp hgrant (by decide) (by decide) :
      unchangedBut [.engine, .host, .contexts, .rollback, .port] s.dev _).of_engine hengine
  · rw [hctx]
    exact undo_otherContexts s.dev.arrived c _ x hx
  · exact ((undo_grows s.dev.arrived c .abandoned).of_start (d := s.dev) rfl |>.then_port rfl).kept.trans
      (grant_portKept _)
  · rw [hctx]
    exact undo_ctx s.dev.arrived c _
  · rw [hctx]
    exact Eq.trans (hgrant .host (by decide)) (arrived_host_answered (hu .host (by decide)) _ _)
  · have h := undo_walkChosen s.dev.arrived c .abandoned
    exact ((h.mono rfl (fun _ => ⟨rfl, rfl⟩) rfl fun _ hl => hl : walkChosen _ s.dev.arrived (u.reply c .accepted)).grant).of_part rfl
  · have hp : (u.reply c .accepted).port = s.dev.port := hbusy h
    rw [grant_stable hs.grant hp]
    exact hp

/-! ### The wait limit -/

/-- In RUNNING a command that leaves the port as it stood ends where its own changes do. -/
theorem SettledInv.next_running {s : State} (hs : SettledInv s) {o : Host.Outcome State Fault Refusal} {e : Device}
    (h : o = .next (s.withDev e.settle)) (hr : e.part.state = .running) (hp : e.port = s.dev.port) :
    o = .next (s.withDev e) := by
  rw [h, hs.settle_running hr hp]

theorem exec_waitLimitExpiry_waiting {s : State} {w : Waiting} (h : s.dev.host.mode = .waiting w) :
    exec .waitLimitExpiry s = .next (s.withDev (s.dev.waitExpired w).settle) := by
  change execWaitLimitExpiry s = _
  unfold execWaitLimitExpiry
  simp only [h]
  rfl

theorem exec_waitLimitExpiry_reading {s : State} {r : Reading} (h : s.dev.host.mode = .reading r) :
    exec .waitLimitExpiry s = if r.timer = none then .refused .eventCannotOccur else .next (s.withDev
      { s.dev with host := { s.dev.host with mode := .reading { r with timer := none } } }) := by
  change execWaitLimitExpiry s = _
  unfold execWaitLimitExpiry
  simp only [h]
  cases r.timer <;> rfl

theorem exec_waitLimitExpiry_idle {s : State} (h : s.dev.host.mode = .idle) :
    exec .waitLimitExpiry s = .refused .eventCannotOccur := by
  change execWaitLimitExpiry s = _
  unfold execWaitLimitExpiry
  simp only [h]

theorem waitExpired_timeout (d : Device) {w : Waiting} (h : ∀ c, w.cond ≠ .commitCompletion c) :
    d.waitExpired w = d.answer .timeout w.cycle.zeros := by
  unfold Device.waitExpired
  cases hc : w.cond with
  | commitCompletion c => exact absurd hc (h c)
  | _ => rfl

theorem waitExpired_pending (d : Device) {w : Waiting} {c : Ctx} (h : w.cond = .commitCompletion c) :
    d.waitExpired w = Device.reply (d.modifyCtx c fun x => { x with commitWaiter := false }) c .pending := by
  unfold Device.waitExpired
  simp only [h]
  rfl

/-! ### The leases -/

theorem exec_leaseExpiry_of_running {s : State} {c : Ctx} (hr : (s.dev.ctx c).lease.running = true)
    (hl : (s.dev.ctx c).state.live = true) :
    exec (.leaseExpiry c) s = .next (s.withDev (s.dev.leaseExpired c).settle) := if_pos ⟨hr, hl⟩

theorem exec_leaseExpiry_of_stopped {s : State} {c : Ctx} (hr : (s.dev.ctx c).lease.running = false) :
    exec (.leaseExpiry c) s = .refused .eventCannotOccur := if_neg fun k => by simp [hr] at k

/-- The context with its lease-expired flag set (R50). -/
def Device.flagged (d : Device) (c : Ctx) : Device := d.modifyCtx c fun x => { x with leaseExpired := true }

/-- The context flagged, and its lease stopped (R51). -/
def Device.reported (d : Device) (c : Ctx) : Device :=
  d.modifyCtx c fun x => { x with leaseExpired := true, lease := x.lease.stop }

theorem leaseExpired_report {d : Device} (c : Ctx) (h : d.mgmt.settings.leaseAction = .report) : d.leaseExpired c =
    { d.reported c with
      mgmt := { d.mgmt with causes := d.mgmt.causes ||| 1#7, notedExpired := some c } } := by
  unfold Device.leaseExpired
  simp only [h]
  rfl

theorem leaseExpired_revoke {d : Device} (c : Ctx) (h : d.mgmt.settings.leaseAction = .revoke) : d.leaseExpired c =
    { (d.flagged c).undo c .revoked with
      mgmt := { d.mgmt with causes := d.mgmt.causes ||| 2#7, notedRevoked := some c } } := by
  unfold Device.leaseExpired
  simp only [h]
  rfl

/-- Under REVOKE the lease's expiry undoes its context, and behind it the port may grant (R52). -/
theorem exec_leaseExpiry_revoke {s : State} {c : Ctx} (hs : SettledInv s) (hrun : s.dev.part.state = .running)
    (hr : (s.dev.ctx c).lease.running = true) (hl : (s.dev.ctx c).state.live = true)
    (ha : s.dev.mgmt.settings.leaseAction = .revoke) : ∃ d, exec (.leaseExpiry c) s = .next (s.withDev d)
      ∧ unchangedBut [.contexts, .mgmt, .rollback, .port] s.dev d ∧ otherContexts c s.dev d ∧ portKept s.dev d
      ∧ d.ctx c = { s.dev.ctx c with
          leaseExpired := true, lease := (s.dev.ctx c).lease.stop, state := .undoing, spoil := none }
      ∧ walkChosen { s.dev.rollback with list := s.dev.rollback.list ++ [s.dev.listEntry c .revoked] } s.dev d
      ∧ d.mgmt = { s.dev.mgmt with causes := s.dev.mgmt.causes ||| 2#7, notedRevoked := some c } := by
  let f := s.dev.flagged c
  let u := f.undo c .revoked
  let m := s.dev.leaseExpired c
  have hm : m = { u with mgmt := { s.dev.mgmt with causes := s.dev.mgmt.causes ||| 2#7, notedRevoked := some c } } :=
    leaseExpired_revoke c ha
  have hf : unchangedBut [.contexts] s.dev f := modifyCtx_frame _ _ _
  have hu : unchangedBut [.contexts, .rollback, .port] f u := undo_frame f c .revoked
  have hframe : unchangedBut [.contexts, .mgmt, .rollback, .port] s.dev m := by
    rw [hm]
    exact (hf.comp hu (by decide) (by decide) : unchangedBut [.contexts, .rollback, .port] _ _).comp (mgmt_frame u _)
      (by decide) (by decide)
  have hgrant := grant_frame m
  have hctx : ∀ x, m.grant.ctx x = u.ctx x := fun x => by
    rw [Device.ctx_congr (hgrant .contexts (by decide)), hm]
    rfl
  have hfctx : f.ctx c = { s.dev.ctx c with leaseExpired := true } := Device.ctx_modifyCtx s.dev c _
  have hentry : f.listEntry c .revoked = s.dev.listEntry c .revoked := by
    unfold Device.listEntry
    rw [hfctx]
  have hport : m.port = u.port := by rw [hm]
  have hengine : m.grant.engine = s.dev.engine :=
    hs.grant_engine_of_undo (d := f) rfl (hframe .engine (by decide)) hport
  have hpart : m.part = s.dev.part := hframe .part (by decide)
  refine ⟨m.grant, ?_, ?_, fun x hx => ?_, ?_, ?_, ?_, ?_⟩
  · rw [exec_leaseExpiry_of_running hr hl, settle_of_running (hpart ▸ hrun)]
  · exact (hframe.comp hgrant (by decide) (by decide) :
      unchangedBut [.engine, .contexts, .mgmt, .rollback, .port] s.dev _).of_engine hengine
  · rw [hctx, undo_otherContexts f c _ x hx]
    exact Device.ctx_modifyCtx_ne s.dev c x _ hx
  · exact ((undo_grows f c .revoked).of_start (d := s.dev) rfl |>.then_port hport).kept.trans (grant_portKept _)
  · rw [hctx, undo_ctx, hfctx]
  · have h := (undo_walkChosen f c .revoked).of_part (d' := s.dev) rfl
    rw [hentry] at h
    refine (h.mono (f := m) ?_ ?_ ?_ ?_).grant
    · rw [hm]
    · rw [hm]
      exact fun _ => ⟨rfl, rfl⟩
    · rw [hm]
    · rw [hm]
      exact fun _ hl => hl
  · exact Eq.trans (hgrant .mgmt (by decide)) (by rw [hm])

/-- Settles O37: the wait limit by the port's mode, the leases by the action in force. -/
theorem timersExpire : Obligations.TimersExpire := by
  refine ⟨fun s hs hrun => ⟨fun w hw hcond => ?_, fun w c hw hcond => ?_, fun r hr => ⟨fun ht => ?_, fun ht => ?_⟩,
    exec_waitLimitExpiry_idle⟩, fun c s hs hrun => ?_⟩
  · have h := exec_waitLimitExpiry_waiting hw
    rw [waitExpired_timeout _ hcond] at h
    exact hs.next_running h hrun rfl
  · refine ⟨s.dev.modifyCtx c fun x => { x with commitWaiter := false }, ?_, modifyCtx_frame _ _ _,
      fun x hx => Device.ctx_modifyCtx_ne _ _ _ _ hx, Device.ctx_modifyCtx _ _ _⟩
    have h := exec_waitLimitExpiry_waiting hw
    rw [waitExpired_pending _ hcond] at h
    exact hs.next_running h hrun rfl
  · rw [exec_waitLimitExpiry_reading hr, if_neg ht]
  · rw [exec_waitLimitExpiry_reading hr, if_pos ht]
  · intro x stopped
    refine ⟨fun hr hstate => ⟨fun ha => ?_, exec_leaseExpiry_revoke hs hrun hr ((live_iff _).mpr hstate)⟩,
      exec_leaseExpiry_of_stopped⟩
    refine ⟨s.dev.leaseExpired c, ?_, ?_, ?_, ?_, ?_⟩
    · have hrep := leaseExpired_report c ha
      exact hs.next_running (exec_leaseExpiry_of_running hr ((live_iff _).mpr hstate))
        ((congrArg (fun d : Device => d.part.state) hrep).trans hrun) (Eq.trans (congrArg Device.port hrep) rfl)
    all_goals rw [leaseExpired_report c ha]
    · exact (modifyCtx_frame s.dev c _).comp (mgmt_frame (s.dev.reported c) _) (by decide) (by decide)
    · exact fun y hy => (Device.ctx_congr (d := s.dev.reported c) rfl y).trans (Device.ctx_modifyCtx_ne s.dev c y _ hy)
    · exact (Device.ctx_congr (d := s.dev.reported c) rfl c).trans (Device.ctx_modifyCtx s.dev c _)

end Sys2Proof.Machine
end


section
/-! The OPEN and the COMMIT that are taken: their entry is placed, and an idle engine asks for its record (R39, R43, R45,
R88, R129). -/

namespace Sys2Proof.Machine

/-! ### An entry placed in a settled part -/

/-- A record asked for behind another waits, and the port is not asked (R107). -/
theorem placeEntry_port_of_waiting {d : Device} {e : QEntry} (hw : e.write? = none) (hi : d.engine = .idle)
    (hq : d.queue = []) (ha : d.journal.append ≠ none) : (d.placeEntry e).port = d.port := by
  obtain ⟨hp, hqueue⟩ := placeEntry_of_idle e hi hq
  have happend : ∀ (n : Engine) (r : RecordReq),
      (Device.requestAppend { d.entered e with engine := n } .writeEngine r).port = d.port := fun n r => by
    refine (requestAppend_port _ _ ?_).trans (entered_port d e)
    exact fun k => ha ((congrArg Journal.append (entered_journal d e)).symm.trans k)
  rw [hp]
  cases e with
  | plain w => exact absurd hw (by simp [QEntry.write?])
  | covered w c i => exact absurd hw (by simp [QEntry.write?])
  | logged w c i n => exact absurd hw (by simp [QEntry.write?])
  | openEntry c i =>
    rw [engineNext_openEntry hqueue]
    exact happend _ _
  | commitEntry c i =>
    rw [engineNext_commitEntry hqueue]
    exact happend _ _

/-- Where the entry that is placed asks for a record, an idle engine asks for its append (R88, R129). -/
theorem SameAtWork.placed_idle {s : State} {x : Device} (h : SameAtWork s x) (hs : SettledInv s) (e : QEntry)
    (hi : s.dev.engine = .idle) : engineTook [e] (x.entered e) (x.placeEntry e)
      ∧ (x.placeEntry e).journal = x.takenUp [e]
      ∧ (x.placeEntry e).mgmt = x.mgmt.withCauses (x.lowCauses x.journal (x.placeEntry e).journal x.mgmt.causes) := by
  have hidle := h.engine.trans hi
  have hempty := h.idle_queue hs hidle
  have hjournal := placeEntry_journal_of_idle e hidle hempty
  refine ⟨placeEntry_took_of_idle e hidle hempty, hjournal, ?_⟩
  rw [hjournal]
  exact placeEntry_mgmt_of_idle e hidle hempty

/-- Behind a busy engine the entry changes nothing of the journal controller, of the causes or of the port. -/
theorem SameAtWork.placed_busy {s : State} {x : Device} (h : SameAtWork s x) (e : QEntry) (hb : s.dev.engine ≠ .idle) :
    (x.placeEntry e).journal = x.journal ∧ (x.placeEntry e).mgmt = x.mgmt ∧ (x.placeEntry e).port = s.dev.port := by
  have hf : unchangedBut [.queue, .contexts, .engine] x (x.placeEntry e) :=
    placeEntry_frame_of_busy (d := x) e (h.engine ▸ hb)
  exact ⟨hf .journal (by decide), hf .mgmt (by decide), Eq.trans (hf .port (by decide)) h.port⟩

/-- The causes that follow an entry placed, by the journal controller before and after. -/
theorem SameAtWork.placed_mgmt {s : State} {x : Device} (h : SameAtWork s x) (hs : SettledInv s) (e : QEntry) :
    (x.placeEntry e).mgmt = x.mgmt.withCauses (x.lowCauses x.journal (x.placeEntry e).journal x.mgmt.causes) := by
  by_cases hi : s.dev.engine = .idle
  · exact (h.placed_idle hs e hi).2.2
  · obtain ⟨hjournal, hmgmt, _⟩ := h.placed_busy e hi
    rw [hjournal, hmgmt, lowCauses_of_same _ rfl rfl rfl, Management.withCauses_self]

/-! ### OPEN -/

/-- The instance number that the next OPEN gives: 0 is not given (R39). -/
def Journal.givenInst (j : Journal) : Word := if j.nextInst = 0 then 1 else j.nextInst

theorem takeInstance_next (j : Journal) : takeInstance j.nextInst = (j.givenInst, j.givenInst + 1) := by
  unfold takeInstance Journal.givenInst
  split <;> rfl

/-- The journal controller with the room of an OPEN reserved and its instance number given (R39, R43). -/
def Journal.opened (j : Journal) : Journal :=
  { j with reserved := j.reserved + 12, nextInst := j.givenInst + 1 }

/-- The block with the room of an OPEN reserved and its instance number given (R39, R43). -/
def Device.openRoom (d : Device) : Device := { d.reserve 12 with journal := d.journal.opened }

theorem openRoom_frame (d : Device) : unchangedBut [.journal, .mgmt] d d.openRoom :=
  (reserve_frame d 12).comp (journal_frame _ _) (by decide) (by decide)

theorem openRoom_contexts (d : Device) : d.openRoom.contexts = d.contexts := openRoom_frame d .contexts (by decide)

theorem openRoom_mgmt (d : Device) : d.openRoom.mgmt
    = d.mgmt.withCauses (d.lowCauses d.journal d.journal.opened d.mgmt.causes) :=
  (reserve_mgmt d 12).trans (congrArg d.mgmt.withCauses
    (lowCauses_congr _ rfl rfl rfl ⟨rfl, rfl, rfl⟩ ⟨rfl, rfl, rfl⟩))

/-- The block with the OPEN context, before its entry is placed (R43). -/
def Device.openedFor (d : Device) (c : Ctx) : Device :=
  d.openRoom.modifyCtx c fun x =>
    { x with state := .opened, inst := d.journal.givenInst, lease := d.freshLease, leaseExpired := false, spoil := none
             owned := 0, newest := none }

theorem openRoom_freshLease (d : Device) : d.openRoom.freshLease = d.freshLease := by
  unfold Device.freshLease
  rw [openRoom_mgmt, Management.withCauses_settings]

theorem openRoom_of_reserve (d : Device) : { d.reserve 12 with journal :=
    { (d.reserve 12).journal with nextInst := (takeInstance (d.reserve 12).journal.nextInst).2 } } = d.openRoom := by
  rw [reserve_journal]
  exact congrArg (fun i => { d.reserve 12 with journal :=
    { d.journal with reserved := d.journal.reserved + 12, nextInst := i } }) (congrArg Prod.snd (takeInstance_next _))

theorem admitOpen_eq (d : Device) (c : Ctx) :
    d.admitOpen c = ((d.openedFor c).placeEntry (.openEntry c d.journal.givenInst)).reply c .opened := by
  have hinst : (takeInstance (d.reserve 12).journal.nextInst).1 = d.journal.givenInst := by
    rw [reserve_journal]
    exact congrArg Prod.fst (takeInstance_next d.journal)
  have hroom := openRoom_of_reserve d
  unfold Device.admitOpen Device.openedFor
  dsimp only [Config.openReservation]
  rw [hinst, hroom, openRoom_freshLease]

theorem openedFor_frame (d : Device) (c : Ctx) : unchangedBut [.contexts, .journal, .mgmt] d (d.openedFor c) :=
  (openRoom_frame d).comp (modifyCtx_frame _ _ _) (by decide) (by decide)

theorem openedFor_ctx (d : Device) (c : Ctx) : (d.openedFor c).ctx c = { d.ctx c with
    state := .opened, inst := d.journal.givenInst, lease := d.freshLease, leaseExpired := false, spoil := none
    owned := 0, newest := none } := by
  unfold Device.openedFor
  rw [Device.ctx_modifyCtx, Device.ctx_congr (openRoom_contexts d)]

theorem openedFor_otherContexts (d : Device) (c : Ctx) : otherContexts c d (d.openedFor c) := fun x hx => by
  unfold Device.openedFor
  rw [Device.ctx_modifyCtx_ne _ _ _ _ hx, Device.ctx_congr (openRoom_contexts d)]

theorem openedFor_mgmt (d : Device) (c : Ctx) : (d.openedFor c).mgmt
    = d.mgmt.withCauses (d.lowCauses d.journal d.journal.opened d.mgmt.causes) := openRoom_mgmt d

/-- Settles O31: the room is reserved, then the entry is placed and answered. -/
theorem openAdmitted : Obligations.OpenAdmitted := by
  intro m c s hm he hs hfree hcond hwait hroom hq inst j req s1
  let x := s.dev.arrived.openedFor c
  let e : QEntry := .openEntry c inst
  let p := x.placeEntry e
  have hx : unchangedBut [.contexts, .journal, .mgmt] s.dev.arrived x := openedFor_frame _ _
  have hwork : SameAtWork s x := ⟨hx .engine (by decide), hx .queue (by decide), hx .port (by decide),
    hx .part (by decide)⟩
  have hp : unchangedBut [.contexts, .queue, .engine, .journal, .mgmt, .port] x p := placeEntry_frame x e
  have hboth : unchangedBut [.queue, .contexts, .engine, .journal, .mgmt, .port] s.dev.arrived p :=
    hx.comp hp (by decide) (by decide)
  have heval : s.dev.arrived.evalOpen c = p.reply c .opened :=
    (evalOpen_admitted (d := s.dev.arrived) hfree hcond hwait hroom hq).trans (admitOpen_eq s.dev.arrived c)
  have hgrant := grant_frame (p.reply c .opened)
  have hjournal : (p.reply c .opened).grant.journal = p.journal := hgrant .journal (by decide)
  have hctx : ∀ y, (p.reply c .opened).grant.ctx y = p.ctx y := Device.ctx_congr (hgrant .contexts (by decide))
  have hctxc : p.ctx c = { s.dev.ctx c with
      state := .opened, inst := inst, leaseExpired := false, spoil := none, owned := 0, newest := none
      lease := { running := true, lengthMs := s.dev.mgmt.settings.leaseLength, elapsed := 0 }
      queued := (s.dev.ctx c).queued + 1 } := by
    rw [placeEntry_ctx (c := c) rfl, openedFor_ctx]
    rfl
  have hmgmt := hwork.placed_mgmt hs e
  refine ⟨_, cycle_granted he (exec_openMark hm s) heval (hboth .part (by decide)),
    placed_answered_frame hboth (by decide) (by decide) _ _, fun y hy => ?_, hwork.portKept_placed e _ _, ?_, ?_, ?_, ?_,
    fun hi => ?_, fun hb => ?_⟩
  · rw [hctx, placeEntry_otherContexts (c := c) rfl y hy, openedFor_otherContexts _ _ y hy]
    rfl
  · rw [hctx, hctxc]
  · rw [hctx]
    exact Eq.trans (hgrant .host (by decide)) (arrived_host_answered (hboth .host (by decide)) _ _)
  · exact Eq.trans (hgrant .queue (by decide)) ((placeEntry_queue x e).trans (congrArg (· ++ [e]) hwork.queue))
  · rw [hjournal]
    refine Eq.trans (hgrant .mgmt (by decide)) (hmgmt.trans ?_)
    rw [openedFor_mgmt]
    exact congrArg s.dev.mgmt.withCauses (lowCauses_congr _ (hx .part (by decide))
      (by rw [openedFor_mgmt]; rfl) rfl ⟨rfl, rfl, rfl⟩ ⟨rfl, rfl, rfl⟩)
  · obtain ⟨⟨heng, hfirst⟩, hj, _⟩ := hwork.placed_idle hs e hi
    have hpart : x.part = s1.part := hx .part (by decide)
    have hentered : (x.entered e).journal.append = s.dev.journal.append := by rw [entered_journal]; rfl
    have hplaced : (x.entered e).placedAppend .writeEngine req = s1.placedAppend .writeEngine req :=
      placedAppend_congr (Or.inl rfl) ((entered_part x e).trans hpart) (entered_journal x e) _
    refine ⟨(grant_engine (d := p.reply c .opened) fun g k => ?_).trans heng, ?_, fun ha => ?_, fun ha => ?_⟩
    · exact absurd (heng.symm.trans k) (by simp)
    · exact (hjournal.trans hj).trans (appendAsked_congr (Or.inl rfl) hpart rfl _)
    · rw [← hplaced]
      exact ((hfirst (hentered.trans ha)).mono (.of_port (d := p) (e := p.reply c .opened) rfl)).grant
    · have hport : (p.reply c .opened).port = s.dev.port :=
        (placeEntry_port_of_waiting rfl (hwork.engine.trans hi) (hwork.idle_queue hs (hwork.engine.trans hi)) ha).trans
          hwork.port
      rw [grant_stable hs.grant hport]
      exact hport
  · obtain ⟨hj, _, hport⟩ := hwork.placed_busy e hb
    exact ⟨hjournal.trans hj, hwork.port_busy hs e _ _ hb⟩

/-! ### COMMIT -/

/-- The context CLOSING, with its lease stopped and a COMMIT that waits for it (R45). -/
def Device.closingFor (d : Device) (c : Ctx) : Device :=
  d.modifyCtx c fun x => { x with state := .closing, lease := x.lease.stop, commitWaiter := true }

/-- The block in which the entry of a COMMIT is placed: the cycle waits (R45). -/
def Device.commitWaits (d : Device) (c : Ctx) : Device :=
  (d.closingFor c).waitOn (.commitMark c) (.commitCompletion c)

theorem takeCommit_eq (d : Device) (c : Ctx) :
    d.takeCommit c = (d.commitWaits c).placeEntry (.commitEntry c (d.ctx c).inst) := rfl

theorem commitWaits_frame (d : Device) (c : Ctx) : unchangedBut [.contexts, .host] d (d.commitWaits c) :=
  (modifyCtx_frame d c _).comp (waitOn_frame _ _ _) (by decide) (by decide)

theorem commitWaits_ctx (d : Device) (c : Ctx) : (d.commitWaits c).ctx c
    = { d.ctx c with state := .closing, lease := (d.ctx c).lease.stop, commitWaiter := true } :=
  (Device.ctx_congr (waitOn_frame (d.closingFor c) _ _ .contexts (by decide)) c).trans (Device.ctx_modifyCtx d c _)

theorem commitWaits_otherContexts (d : Device) (c : Ctx) : otherContexts c d (d.commitWaits c) := fun x hx =>
  (Device.ctx_congr (waitOn_frame (d.closingFor c) _ _ .contexts (by decide)) x).trans
    (Device.ctx_modifyCtx_ne d c x _ hx)

theorem commitWaits_newest (d : Device) (c x : Ctx) : ((d.commitWaits c).ctx x).newest = (d.ctx x).newest := by
  by_cases h : x = c
  · subst h
    rw [commitWaits_ctx]
  · rw [commitWaits_otherContexts d c x h]

/-- Settles O33: the cycle waits, then the entry is placed. -/
theorem commitTaken : Obligations.CommitTaken := by
  intro m c s hm he hs hopen hq req
  let x := s.dev.arrived.commitWaits c
  let e : QEntry := .commitEntry c (s.dev.ctx c).inst
  let p := x.placeEntry e
  have hx : unchangedBut [.contexts, .host] s.dev.arrived x := commitWaits_frame _ _
  have hwork : SameAtWork s x := ⟨hx .engine (by decide), hx .queue (by decide), hx .port (by decide),
    hx .part (by decide)⟩
  have hp : unchangedBut [.contexts, .queue, .engine, .journal, .mgmt, .port] x p := placeEntry_frame x e
  have hboth : unchangedBut [.host, .contexts, .queue, .engine, .journal, .port, .mgmt] s.dev.arrived p :=
    hx.comp hp (by decide) (by decide)
  have hfull : ¬ s.dev.arrived.queueFull = true := fun k => absurd ((queueFull_iff s.dev.arrived).mp k) (not_le.mpr hq)
  have heval : s.dev.arrived.evalCommit c = p :=
    (evalCommit_opened (d := s.dev.arrived) hopen).trans (if_neg hfull)
  have hgrant := grant_frame p
  have hjournal : p.grant.journal = p.journal := hgrant .journal (by decide)
  have hctx : ∀ y, p.grant.ctx y = p.ctx y := Device.ctx_congr (hgrant .contexts (by decide))
  have hxjournal : x.journal = s.dev.journal := hx .journal (by decide)
  have hpart : x.part = s.dev.part := hx .part (by decide)
  have hmgmt : x.mgmt = s.dev.mgmt := hx .mgmt (by decide)
  refine ⟨_, cycle_granted he (exec_commitMark hm s) heval (hboth .part (by decide)), ?_, fun y hy => ?_,
    ((placeEntry_grows x e).of_start hwork.port).kept.trans (grant_portKept _), ?_, ?_, ?_, fun hi => ?_, ?_, fun hb => ?_⟩
  · exact ((host_frame s.dev _).comp hboth (by decide) (by decide) :
      unchangedBut [.host, .contexts, .queue, .engine, .journal, .port, .mgmt] s.dev p).comp hgrant (by decide)
      (by decide)
  · rw [hctx, placeEntry_otherContexts (c := c) rfl y hy, commitWaits_otherContexts _ _ y hy]
    rfl
  · rw [hctx, placeEntry_ctx (c := c) rfl, commitWaits_ctx]
    rfl
  · have hhost : p.host = x.host := hp .host (by decide)
    refine Eq.trans (hgrant .host (by decide)) (hhost.trans ?_)
    exact congrArg (fun t : State => t.dev.host)
      (withDev_waitOn_arrived he (.commitMark c) (.commitCompletion c))
  · exact Eq.trans (hgrant .queue (by decide)) ((placeEntry_queue x e).trans (congrArg (· ++ [e]) hwork.queue))
  · obtain ⟨⟨heng, hfirst⟩, hj, _⟩ := hwork.placed_idle hs e hi
    have hlink : sameLink req s.dev x := Or.inr (commitWaits_newest s.dev.arrived c c)
    have hentered : (x.entered e).journal = s.dev.journal := (entered_journal x e).trans hxjournal
    have hplaced : (x.entered e).placedAppend .writeEngine req = s.dev.placedAppend .writeEngine req :=
      placedAppend_congr (Or.inr ((entered_newest x e c).trans (commitWaits_newest s.dev.arrived c c)))
        ((entered_part x e).trans hpart) hentered _
    refine ⟨(grant_engine fun g k => absurd (heng.symm.trans k) (by simp)).trans heng, ?_, fun ha => ?_, fun ha => ?_⟩
    · exact (hjournal.trans hj).trans (appendAsked_congr hlink hpart hxjournal _)
    · rw [← hplaced]
      exact (hfirst ((congrArg Journal.append hentered).trans ha)).grant
    · have hport : p.port = s.dev.port :=
        (placeEntry_port_of_waiting rfl (hwork.engine.trans hi) (hwork.idle_queue hs (hwork.engine.trans hi))
          (by rwa [hxjournal])).trans hwork.port
      rw [grant_stable hs.grant hport]
      exact hport
  · rw [hjournal]
    refine Eq.trans (hgrant .mgmt (by decide)) ((hwork.placed_mgmt hs e).trans ?_)
    rw [hmgmt, hxjournal]
    exact congrArg s.dev.mgmt.withCauses (lowCauses_congr _ hpart (by rw [hmgmt]) rfl ⟨rfl, rfl, rfl⟩ ⟨rfl, rfl, rfl⟩)
  · obtain ⟨hj, _, hport⟩ := hwork.placed_busy e hb
    refine ⟨hjournal.trans (hj.trans hxjournal), ?_⟩
    rw [grant_stable hs.grant hport]
    exact hport

end Sys2Proof.Machine
end

section
/-! The anchor writes and header reads that the retirement pass and the forced reclaim ask for, each requested as it is
issued (R114-R121), and the waits for journal room that start a reclaim. -/

namespace Sys2Proof.Machine

/-! ### What is asked for -/

/-- The anchor write in hand is requested at its rank, with the values of R118. -/
def anchorIssued (e : Device) : Prop :=
  ∀ a, e.journal.anchor = some a → .write (.anchor (decide (a.why ≠ .unforced)))
    (e.anchorLine a.tail e.journal.tailSeq e.journal.nextInst) ∈ e.port.asked

/-- The header at the live tail is requested for the pass that runs (R116). -/
def headerRequested (e : Device) : Prop :=
  e.journal.pass ≠ none → .read .header (ringLine e.part.straps e.journal.liveTail) ∈ e.port.asked

theorem anchorAsked_of_issued {j : Journal} {e : Device} (h : j.anchor = none → anchorIssued e) : anchorAsked j e := by
  intro hj a ha
  have hasked := h hj a ha
  unfold Journal.tailSeq at hasked
  exact hasked

theorem anchorIssued_of_none {e : Device} (h : e.journal.anchor = none) : anchorIssued e :=
  fun _ ha => absurd (h.symm.trans ha) (by simp)

theorem headerRequested_of_none {e : Device} (h : e.journal.pass = none) : headerRequested e := fun hp => absurd h hp

theorem headerAsked_of_requested {j : Journal} {e : Device} (h : j.pass = none → headerRequested e) : headerAsked j e :=
  fun hj => h hj

/-- What the two need of a block, so that they hold of the other: its journal controller, straps and requests. -/
structure AsksAlike (e f : Device) : Prop where
  journal : f.journal = e.journal
  straps : f.part.straps = e.part.straps
  asked : ∀ a, a ≠ .refresh → a ∈ e.port.asked → a ∈ f.port.asked

theorem AsksAlike.of_grows {e f : Device} (hj : f.journal = e.journal) (hs : f.part.straps = e.part.straps)
    (h : PortGrows e f) : AsksAlike e f := ⟨hj, hs, fun _ _ => h.asked⟩

theorem asksAlike_grant (e : Device) : AsksAlike e e.grant :=
  ⟨grant_frame e .journal (by decide), by rw [grant_frame e .part (by decide)],
    fun _ h => (mem_asked_grant h).mpr⟩

theorem AsksAlike.trans {e f g : Device} (h : AsksAlike e f) (k : AsksAlike f g) : AsksAlike e g :=
  ⟨k.journal.trans h.journal, k.straps.trans h.straps, fun a ha hm => k.asked a ha (h.asked a ha hm)⟩

theorem anchorLine_congr {d e : Device} (h : e.part.straps = d.part.straps) (t : Nat) (q i : Word) :
    e.anchorLine t q i = d.anchorLine t q i := by
  unfold Device.anchorLine Device.ring
  rw [h]

theorem anchorIssued.alike {e f : Device} (h : anchorIssued e) (k : AsksAlike e f) : anchorIssued f := fun a ha => by
  rw [k.journal] at ha ⊢
  rw [anchorLine_congr k.straps]
  exact k.asked _ (by simp) (h a ha)

theorem headerRequested.alike {e f : Device} (h : headerRequested e) (k : AsksAlike e f) : headerRequested f := fun hp => by
  rw [k.journal] at hp ⊢
  rw [k.straps]
  exact k.asked _ (by simp) (h hp)

/-! ### The anchor writer -/

theorem issueAnchor_journal (d : Device) (why : AnchorUse) : (d.issueAnchor why).journal = { d.journal with
    anchor := some { tail := if why = .format then 0 else d.journal.liveTail, why := why } } := rfl

theorem issueAnchor_asked {d : Device} {why : AnchorUse} (h : why ≠ .format) :
    .write (.anchor (decide (why ≠ .unforced))) (d.anchorLine d.journal.liveTail d.journal.tailSeq d.journal.nextInst)
      ∈ (d.issueAnchor why).port.asked := by
  have hline : d.issueAnchor why = Device.request { d with journal := { d.journal with
      anchor := some { tail := if why = .format then 0 else d.journal.liveTail, why := why } } }
      (.write (.anchor (decide (why ≠ .unforced)))
        (d.anchorLine d.journal.liveTail d.journal.tailSeq d.journal.nextInst)) := by
    unfold Device.issueAnchor Device.anchorLine
    simp only [if_neg h]
  rw [hline]
  exact asked_request _ _

theorem issueAnchor_format_asked (d : Device) :
    .write (.anchor true) (d.anchorLine 0 d.journal.nextSeq 1) ∈ (d.issueAnchor .format).port.asked :=
  asked_request _ _

theorem issueAnchor_issued {d : Device} {why : AnchorUse} (h : why ≠ .format) : anchorIssued (d.issueAnchor why) := by
  intro a ha
  rw [issueAnchor_journal] at ha
  obtain rfl := Option.some.inj ha
  have hasked := issueAnchor_asked (d := d) h
  rw [← if_neg (c := why = .format) (t := 0) (e := d.journal.liveTail) h] at hasked
  exact hasked

theorem requestForcedAnchor_issued {d : Device} (h : d.journal.anchor = none) : anchorIssued d.requestForcedAnchor := by
  unfold Device.requestForcedAnchor
  rw [h]
  exact issueAnchor_issued (by decide)

/-! ### The pass -/

theorem passStop_issued {d : Device} (p : Pass) (h : d.journal.anchor = none) : anchorIssued (d.passStop p) := by
  unfold Device.passStop
  extract_lets j rises debt d1
  split
  · exact requestForcedAnchor_issued h
  · split
    · exact issueAnchor_issued (by decide)
    · exact anchorIssued_of_none h

theorem stoppedPass_pass (d : Device) (j : Journal) (start tail : Nat) (t : Option TailId) :
    (d.stoppedPass j start tail t).pass = none := by
  unfold Device.stoppedPass
  extract_lets rises debt j1
  split
  · split <;> rfl
  · split <;> rfl

theorem passStop_pass (d : Device) (p : Pass) : (d.passStop p).journal.pass = none := by
  rw [passStop_journal]
  exact stoppedPass_pass _ _ _ _ _

theorem passRun_issued {d : Device} (p : Pass) (h : d.journal.anchor = none) : anchorIssued (d.passRun p) := by
  unfold Device.passRun
  extract_lets j
  split
  · exact passStop_issued p h
  · split
    · split
      · exact passStop_issued p h
      · exact anchorIssued_of_none h
    · exact anchorIssued_of_none h

theorem passRun_requested (d : Device) (p : Pass) : headerRequested (d.passRun p) := by
  unfold Device.passRun
  extract_lets j
  split
  · exact headerRequested_of_none (passStop_pass _ _)
  · split
    · split
      · exact headerRequested_of_none (passStop_pass _ _)
      · exact fun _ => asked_request _ _
    · exact fun _ => asked_request _ _

theorem beginPass_issued {d : Device} (h : d.journal.anchor = none) : anchorIssued d.beginPass := passRun_issued _ h

theorem beginPass_requested (d : Device) : headerRequested d.beginPass := passRun_requested _ _

theorem requestPass_issued {d : Device} (h : d.journal.anchor = none) : anchorIssued d.requestPass := by
  unfold Device.requestPass
  split
  · split
    · exact beginPass_issued h
    · exact anchorIssued_of_none h
  · exact anchorIssued_of_none h

theorem requestPass_requested {d : Device} (h : d.journal.pass = none) : headerRequested d.requestPass := by
  unfold Device.requestPass
  split
  · rw [h]
    exact beginPass_requested d
  · exact headerRequested_of_none h

theorem requestReclaim_issued {d : Device} (h : d.journal.anchor = none) : anchorIssued d.requestReclaim := by
  unfold Device.requestReclaim
  split
  · exact anchorIssued_of_none h
  · exact anchorIssued_of_none h
  · split
    · exact beginPass_issued h
    · exact anchorIssued_of_none h

theorem requestReclaim_requested {d : Device} (h : d.journal.pass = none) : headerRequested d.requestReclaim := by
  unfold Device.requestReclaim
  split
  · exact headerRequested_of_none h
  · exact headerRequested_of_none h
  · rw [h]
    exact beginPass_requested _

/-! ### One request at most, and none that the write engine waits for -/

/-- The port is asked for nothing, or for one access whose grant the write engine does not see (R91). -/
def asksBeside (d e : Device) : Prop :=
  e.port = d.port ∨ ∃ a, (∀ x : Engine, x.onGrant a = x)
    ∧ e.port = { d.port with waiting := d.port.waiting ++ [a] }

theorem asksBeside_anchor (d : Device) (why : AnchorUse) : asksBeside d (d.issueAnchor why) :=
  Or.inr ⟨_, fun x => by cases x <;> rfl, rfl⟩

theorem asksBeside_header (d : Device) (p : Nat) : asksBeside d (d.requestHeader p) :=
  Or.inr ⟨_, fun x => by cases x <;> rfl, rfl⟩

theorem asksBeside_forcedAnchor (d : Device) : asksBeside d d.requestForcedAnchor := by
  unfold Device.requestForcedAnchor
  split
  · exact asksBeside_anchor d _
  · exact Or.inl rfl

theorem asksBeside_passStop (d : Device) (p : Pass) : asksBeside d (d.passStop p) := by
  unfold Device.passStop
  extract_lets j rises debt d1
  split
  · exact asksBeside_forcedAnchor { d with journal := _ }
  · split
    · exact asksBeside_anchor { d with journal := _ } _
    · exact Or.inl rfl

theorem asksBeside_passRun (d : Device) (p : Pass) : asksBeside d (d.passRun p) := by
  unfold Device.passRun
  extract_lets j
  split
  · exact asksBeside_passStop { d with journal := _ } p
  · split
    · split
      · exact asksBeside_passStop { d with journal := _ } p
      · exact asksBeside_header { d with journal := _ } _
    · exact asksBeside_header { d with journal := _ } _

theorem asksBeside_requestReclaim (d : Device) : asksBeside d d.requestReclaim := by
  unfold Device.requestReclaim
  split
  · exact Or.inl rfl
  · exact Or.inl rfl
  · split
    · exact asksBeside_passRun { d with journal := _ } _
    · exact Or.inl rfl

/-- Such a request is granted beside the write engine. -/
theorem SettledInv.grant_engine_of_beside {s : State} (hs : SettledInv s) {u m : Device} (hu : u.port = s.dev.port)
    (he : m.engine = s.dev.engine) (hm : asksBeside u m) : m.grant.engine = s.dev.engine := by
  rw [← he]
  rcases hm with h | ⟨a, ha, h⟩
  · rw [grant_stable hs.grant (h.trans hu)]
  · rw [hu] at h
    rcases hs.grant_cases_requested h with hg | hg
    · rw [hg]
    · rw [hg, ha]

/-! ### Waiting for room -/

theorem reclaimRequested_reclaim (d : Device) (j : Journal) : (d.reclaimRequested j).reclaim ≠ .idle := by
  have stopped : ∀ (k : Journal) (a b : Nat) (t : Option TailId), k.reclaim = .inPass →
      (d.stoppedPass k a b t).reclaim ≠ .idle := fun k a b t hk => by
    unfold Device.stoppedPass
    dsimp only
    rw [if_pos hk]
    split <;> simp
  unfold Device.reclaimRequested
  split
  · next h => simp [h]
  · next h => simp [h]
  · unfold Device.begunPass
    dsimp only
    split
    · exact stopped _ _ _ _ rfl
    · split
      · simp
      · split
        · exact stopped _ _ _ _ rfl
        · simp
  · simp

/-- Settles O30: the wait is set, the reclaim is requested, and behind it the port may grant. -/
theorem roomWaitStartsReclaim : Obligations.RoomWaitStartsReclaim := by
  intro s he hs hrule waits
  have starts : ∀ {i : Instr} {cycle : Cycle} {zeros : List Word} {eval : Device → Device},
      exec i s = .next (s.withDev (s.dev.takeCycle zeros eval)) →
      eval s.dev.arrived = (s.dev.arrived.waitOn cycle .journalRoom).requestReclaim → waits i cycle := by
    intro i cycle zeros eval hexec heval
    let u := s.dev.arrived.waitOn cycle .journalRoom
    let m := u.requestReclaim
    have hu : unchangedBut [.host] s.dev.arrived u := waitOn_frame _ _ _
    have hm : unchangedBut [.journal, .port] u m := requestReclaim_frame u
    have hboth : unchangedBut [.host, .journal, .port] s.dev m :=
      ((host_frame s.dev _).comp hu (by decide) (by decide) : unchangedBut [.host] s.dev u).comp hm (by decide)
        (by decide)
    have hport : u.port = s.dev.port := rfl
    have hengine : m.grant.engine = s.dev.engine :=
      hs.grant_engine_of_beside hport (hboth .engine (by decide)) (asksBeside_requestReclaim u)
    have hjournal : m.grant.journal = s.dev.reclaimRequested s.dev.journal :=
      Eq.trans (grant_frame m .journal (by decide)) (requestReclaim_journal u)
    have hhost : m.grant.host = u.host := Eq.trans (grant_frame m .host (by decide)) (hm .host (by decide))
    refine ⟨m.grant, cycle_granted he hexec heval (hboth .part (by decide)), ?_, hhost.trans ?_, hjournal, ?_,
      headerAsked_of_requested fun h => (requestReclaim_requested (d := u) h).alike (asksAlike_grant m),
      anchorAsked_of_issued fun h => (requestReclaim_issued (d := u) h).alike (asksAlike_grant m),
      ((requestReclaim_grows u).of_start hport).kept.trans (grant_portKept m)⟩
    · exact (hboth.comp (grant_frame m) (by decide) (by decide) :
        unchangedBut [.engine, .host, .journal, .port] s.dev m.grant).of_engine hengine
    · exact congrArg (fun t : State => t.dev.host) (withDev_waitOn_arrived he cycle .journalRoom)
    · rw [hjournal]
      exact reclaimRequested_reclaim _ _
  have hpossible : s.dev.arrived.reclaimPossible = true := (reclaimPossible_iff _).mpr hrule
  refine ⟨fun m c hm hfree hstate hwait => ?_, fun c mode view x hfree hl hc hmode hne hx hstate => ?_⟩
  · exact starts (exec_openMark hm s)
      (evalOpen_roomWait (d := s.dev.arrived) hstate hrule.1 hwait hfree hpossible)
  · intro line written hown hfew
    have hw : writtenWords c s.dev.mgmt.settings.burstOrder ≠ [] := writtenWords_ne_nil _ hl hne
    refine starts (exec_hostWrite hl s) ?_
    have htagged : s.dev.arrived.evalWrite c s.dev.mgmt.settings.burstOrder
        = s.dev.arrived.admitTagged c s.dev.mgmt.settings.burstOrder x :=
      evalWrite_tagged (d := s.dev.arrived) hc hmode hw hx hstate fun e ho => (hown e ho).1
    have logged : ∀ needed, s.dev.arrived.admitLogged c s.dev.mgmt.settings.burstOrder x needed
        = (s.dev.arrived.waitOn (.write c s.dev.mgmt.settings.burstOrder) .journalRoom).requestReclaim :=
      fun needed => (admitLogged_noRoom (d := s.dev.arrived) hfree).trans (if_pos hpossible)
    refine htagged.trans ?_
    cases howner : s.dev.ownerOf line with
    | some e => exact (admitTagged_owned (d := s.dev.arrived) howner).trans ((if_neg (hown e howner).2).trans (logged _))
    | none =>
      have hroom : ¬ 128 ≤ s.dev.arrived.own.length := not_le.mpr (hfew howner)
      exact (admitTagged_unowned (d := s.dev.arrived) howner).trans ((if_neg hroom).trans (logged _))

end Sys2Proof.Machine
end

section
/-! The old-line read, the writes of an append that is not at its last, and the completion of a FORMAT (R92, R93, R108,
R109, R125). -/

namespace Sys2Proof.Machine

/-! ### A write that completes -/

/-- The block with the write in flight landed and its bytes in the DRAM (R150, R155). -/
def Device.written (d : Device) (w : LineWrite) : Device := { d.landed with dram := d.dram.writeLine w }

theorem dram_frame (d : Device) (m : Memory) : unchangedBut [.dram] d { d with dram := m } := by
  intro b hb
  cases b with
  | dram => exact absurd (by decide) hb
  | _ => rfl

theorem written_frame (d : Device) (w : LineWrite) : unchangedBut [.port, .dram] d (d.written w) :=
  (landed_frame d).comp (dram_frame d.landed _) (by decide) (by decide)

theorem written_portKept (d : Device) (w : LineWrite) : portKept d (d.written w) := ⟨rfl, rfl, rfl⟩

theorem exec_appendWriteComplete {s : State} {a : Append} {who : Appender} {w : LineWrite}
    (h : s.inFlight (.write (.append who) w) w.line) (ha : s.dev.journal.append = some a) :
    exec .appendWriteComplete s = .next (s.withDev ((s.dev.written w).appendWritten a).settle) := by
  change execAppendWriteComplete s = _
  unfold execAppendWriteComplete
  rw [writeDone_of_inFlight h rfl]
  simp only [Device.landed, ha]
  rfl

theorem exec_anchorWriteComplete {s : State} {forced : Bool} {x : LineWrite} {w : AnchorWrite}
    (h : s.inFlight (.write (.anchor forced) x) x.line) (ha : s.dev.journal.anchor = some w) :
    exec .anchorWriteComplete s = .next (s.withDev ((s.dev.written x).anchorWritten w).settle) := by
  change execAnchorWriteComplete s = _
  unfold execAnchorWriteComplete
  rw [writeDone_of_inFlight h rfl]
  simp only [Device.landed, ha]
  rfl

theorem exec_dataWriteComplete {s : State} {w : LineWrite} {e : QEntry} {rest : List QEntry}
    (h : s.inFlight (.write .data w) w.line) (hq : s.dev.queue = e :: rest) :
    exec .dataWriteComplete s = .next (s.withDev ((s.dev.written w).dataWritten e).settle) := by
  change execDataWriteComplete s = _
  unfold execDataWriteComplete
  have hq' : Device.queue { s.dev.landed with dram := s.dev.dram.writeLine w } = e :: rest := hq
  rw [writeDone_of_inFlight h rfl, hq']
  rfl

theorem exec_oldLineReadComplete {s : State} {g : Group} {line : Nat} (h : s.inFlight (.read .oldLine line) line)
    (he : s.dev.engine = .oldRead g) :
    let g1 := { g with images := imagesOf g.union (s.dev.dram.readLine line) }
    exec .oldLineReadComplete s = .next (s.withDev (Device.requestAppend
      { s.dev.landed with engine := .beforeRecord g1 } .writeEngine (beforeRecordReq g1)).settle) := by
  intro g1
  change execOldLineReadComplete s = _
  have he' : s.dev.landed.engine = .oldRead g := he
  unfold execOldLineReadComplete
  rw [readDone_of_inFlight h]
  unfold Device.oldLineRead
  rw [he']
  rfl

/-! ### The old line -/

theorem imagesOf_readLine (m : Memory) (union : WordSet) (line : Nat) :
    imagesOf union (m.readLine line) = (setWords union).map fun i => m.readWord (line + 4 * i.val) :=
  List.map_congr_left fun i _ => readLine_getD m line i

/-- Settles O38: the append is requested, and behind it the port may grant. -/
theorem oldLineReadCompletes : Obligations.OldLineReadCompletes := by
  intro s g line hfly hclosing heng g1 req
  let u : Device := { s.dev.landed with engine := .beforeRecord g1 }
  let m := u.requestAppend .writeEngine req
  have hexec : exec .oldLineReadComplete s = .next (s.withDev m.settle) := by
    have h := exec_oldLineReadComplete hfly heng
    rw [imagesOf_readLine] at h
    exact h
  have hu : unchangedBut [.engine, .port] s.dev u :=
    (landed_frame s.dev).comp (engine_frame s.dev.landed (.beforeRecord g1)) (by decide) (by decide)
  have hm : unchangedBut [.journal, .mgmt, .port] u m := requestAppend_frame _ _ _
  have hboth : unchangedBut [.engine, .journal, .mgmt, .port] s.dev m := hu.comp hm (by decide) (by decide)
  have hengine : m.engine = .beforeRecord g1 := hm .engine (by decide)
  have hsettle : m.settle = m.grant := by
    refine settle_of_busy ?_ (blocksIdle_of_engine (by rw [hengine]; simp))
    rw [hboth .part (by decide), hboth .rollback (by decide)]
    exact hclosing
  have hgrant := grant_frame m
  have hlink : sameLink req s.dev u := sameLink_of_contexts rfl req
  have hjournal : m.grant.journal = s.dev.appendAsked .writeEngine req :=
    Eq.trans (hgrant .journal (by decide)) ((requestAppend_journal u _ req).trans (appendAsked_congr hlink rfl rfl _))
  rw [hsettle] at hexec
  refine ⟨m.grant, hexec, hboth.comp hgrant (by decide) (by decide), ?_, ?_, hjournal, ?_, fun ha => ?_⟩
  · exact (grant_engine fun g' k => absurd (hengine.symm.trans k) (by simp)).trans hengine
  · exact (portKept.trans ⟨rfl, rfl, rfl⟩ (requestAppend_grows u .writeEngine req).kept).trans (grant_portKept m)
  · rw [hjournal]
    exact Eq.trans (hgrant .mgmt (by decide)) (requestAppend_mgmt_congr hlink rfl rfl rfl _)
  · have hfirst := requestAppend_firstAsked (d := u) .writeEngine req ha
    rw [placedAppend_congr hlink rfl rfl] at hfirst
    exact hfirst.grant

/-! ### The writes of an append -/

theorem appendWritten_more {d : Device} {a : Append} {x y : LineWrite} {rest : List LineWrite}
    (h : a.writes = x :: y :: rest) : d.appendWritten a =
      Device.request { d with journal := { d.journal with append := some { a with writes := y :: rest } } }
        (.write (.append a.who) y) := by
  unfold Device.appendWritten
  rw [h]
  rfl

theorem appendWritten_pad {d : Device} {a : Append} {x : LineWrite} {r : Nat} (h : a.writes = [x])
    (hp : a.padLen = some r) : d.appendWritten a = d.padComplete a r := by
  unfold Device.appendWritten
  rw [h]
  simp only [List.drop_succ_cons, List.drop_nil, hp]

theorem appendWritten_record {d : Device} {a : Append} {x : LineWrite} (h : a.writes = [x]) (hp : a.padLen = none) :
    d.appendWritten a = d.recordComplete a := by
  unfold Device.appendWritten
  rw [h]
  simp only [List.drop_succ_cons, List.drop_nil, hp]

/-- With an append in hand no entry into self-refresh is asked for: the end of a command is a grant moment. -/
theorem settle_of_append {d : Device} (h : d.part.state = .starting → d.rollback.list ≠ [])
    (ha : d.journal.append ≠ none) : d.settle = d.grant :=
  settle_of_busy h (by simp [Device.blocksIdle, ha])

/-- The journal controller behind a PAD, before the record is placed (R108, R110). -/
def Journal.afterPad (j : Journal) (a : Append) (r : Nat) : Journal :=
  { j with
    head := 0, endGap := r, nextSeq := j.nextSeq + 1, append := none
    tailRec := if a.pos = j.liveTail then some { kind := .pad, ctx := none, inst := 0, seq := a.seq } else j.tailRec }

theorem padComplete_eq (d : Device) (a : Append) (r : Nat) : d.padComplete a r =
    (Device.noteFree { d with journal := d.journal.afterPad a r } d.free).placeRecord a.who a.req 0 := rfl

theorem padComplete_journal (d : Device) (a : Append) (r : Nat) : (d.padComplete a r).journal =
    { d.journal.afterPad a r with append := some (d.recordAppend a.who a.req 0 (d.journal.nextSeq + 1)) } := by
  have hf : unchangedBut [.mgmt] { d with journal := d.journal.afterPad a r }
      (Device.noteFree { d with journal := d.journal.afterPad a r } d.free) := noteFree_frame _ _
  rw [padComplete_eq, placeRecord_journal,
    recordAppend_congr (d := d) (hf .contexts (by decide)) (hf .part (by decide)), noteFree_journal]
  rfl

theorem padComplete_mgmt (d : Device) (a : Append) (r : Nat) : (d.padComplete a r).mgmt =
    d.mgmt.withCauses (d.lowCauses d.journal (d.journal.afterPad a r) d.mgmt.causes) := by
  rw [padComplete_eq, placeRecord_frame _ _ _ _ .mgmt (by decide)]
  exact noteFree_mgmt rfl

theorem padComplete_firstAsked (d : Device) (a : Append) (r : Nat) :
    firstAsked (d.recordAppend a.who a.req 0 (d.journal.nextSeq + 1)) (d.padComplete a r) := by
  have hf : unchangedBut [.mgmt] { d with journal := d.journal.afterPad a r }
      (Device.noteFree { d with journal := d.journal.afterPad a r } d.free) := noteFree_frame _ _
  have h := placeRecord_firstAsked (Device.noteFree { d with journal := d.journal.afterPad a r } d.free) a.who a.req 0
  rw [recordAppend_congr (d := d) (hf .contexts (by decide)) (hf .part (by decide)), noteFree_journal] at h
  exact h

theorem padComplete_grows (d : Device) (a : Append) (r : Nat) : PortGrows d (d.padComplete a r) :=
  (placeRecord_grows _ _ _ _).of_start
    (noteFree_frame { d with journal := d.journal.afterPad a r } d.free .port (by decide))

/-- Settles O39: the next write is requested, or behind a PAD the record is placed, and the port may grant. -/
theorem appendGoesOn : Obligations.AppendGoesOn := by
  intro s a who w hfly hclosing ha
  let u := s.dev.written w
  have hu : unchangedBut [.port, .dram] s.dev u := written_frame _ _
  have settles : ∀ m : Device, unchangedBut [.journal, .engine, .port, .mgmt, .dram] s.dev m →
      m.journal.append ≠ none → m.settle = m.grant := fun m hm happend => by
    refine settle_of_append ?_ happend
    rw [hm .part (by decide), hm .rollback (by decide)]
    exact hclosing
  refine ⟨fun x y rest hw => ?_, fun x r hw hp => ?_⟩
  · let v : Device := { u with journal := { u.journal with append := some { a with writes := y :: rest } } }
    let m := v.request (.write (.append a.who) y)
    have hexec := exec_appendWriteComplete hfly ha
    rw [appendWritten_more hw] at hexec
    have hm : unchangedBut [.journal, .port, .dram] s.dev m :=
      (hu.comp (journal_frame u _) (by decide) (by decide) : unchangedBut [.journal, .port, .dram] s.dev v).comp
        (request_frame v _) (by decide) (by decide)
    rw [settles m (hm.mono (by decide)) (by simp [m, v])] at hexec
    have hgrant := grant_frame m
    have hdram : m.grant.dram = s.dev.dram.writeLine w := hgrant .dram (by decide)
    refine ⟨m.grant, hexec, hm.comp hgrant (by decide) (by decide), hdram, hgrant .journal (by decide),
      (mem_asked_grant (by simp)).mpr (asked_request v _), ?_, writeLine_sameOutside hdram⟩
    exact ((written_portKept s.dev w).trans (PortGrows.request v _).kept).trans (grant_portKept m)
  · intro b
    let m := u.padComplete a r
    have hexec := exec_appendWriteComplete hfly ha
    rw [appendWritten_pad hw hp] at hexec
    have hm : unchangedBut [.journal, .port, .mgmt, .dram] s.dev m :=
      hu.comp (padComplete_frame u a r) (by decide) (by decide)
    have hrecord : u.recordAppend a.who a.req 0 (u.journal.nextSeq + 1) = b :=
      recordAppend_congr rfl rfl _ _ _ _
    have hjournal : m.journal = { s.dev.journal.afterPad a r with append := some b } := by
      rw [← hrecord]
      exact padComplete_journal u a r
    rw [settles m (hm.mono (by decide)) (by rw [hjournal]; simp)] at hexec
    have hgrant := grant_frame m
    have hdram : m.grant.dram = s.dev.dram.writeLine w :=
      Eq.trans (hgrant .dram (by decide)) (padComplete_frame u a r .dram (by decide))
    have hgjournal : m.grant.journal = { s.dev.journal.afterPad a r with append := some b } :=
      Eq.trans (hgrant .journal (by decide)) hjournal
    refine ⟨m.grant, hexec, hm.comp hgrant (by decide) (by decide), hdram, writeLine_sameOutside hdram, hgjournal, ?_,
      ?_, ?_⟩
    · rw [hgjournal]
      refine Eq.trans (hgrant .mgmt (by decide)) ((padComplete_mgmt u a r).trans (congrArg s.dev.mgmt.withCauses ?_))
      exact lowCauses_congr _ rfl rfl rfl ⟨rfl, rfl, rfl⟩ ⟨rfl, rfl, rfl⟩
    · rw [← hrecord]
      exact (padComplete_firstAsked u a r).grant
    · exact ((written_portKept s.dev w).trans (padComplete_grows u a r).kept).trans (grant_portKept m)

/-! ### FORMAT -/

/-- Settles O48: the block before the waiting cycle sees the step is the one that the FORMAT's write leaves. -/
theorem formatCompletes : Obligations.FormatCompletes := by
  intro s forced x w hfly ha hwhy
  let m := (s.dev.written x).formatLanded
  have hanchor : (s.dev.written x).anchorWritten w = m.observe endedByRoom := by
    unfold Device.anchorWritten
    dsimp only
    rw [if_pos hwhy]
  have hexec := exec_anchorWriteComplete hfly ha
  rw [hanchor] at hexec
  have hused : m.used = 0 := by
    unfold Device.used
    exact (congrArg (· % m.ring) (Nat.zero_add m.ring)).trans (Nat.mod_self m.ring)
  refine ⟨m, hexec, ?_, rfl, writeLine_sameOutside rfl, rfl, rfl, hused, ?_⟩
  · exact (written_frame s.dev x).comp (journal_frame _ _) (by decide) (by decide)
  · unfold Device.free
    rw [hused]
    change (s.dev.ring : Int) - (0 : Nat) - (0 : Nat) - 14 = _
    simp

end Sys2Proof.Machine
end

section
/-! What a waiting cycle and a waiting APPLY see of a step (R10, R29, R30, R76, R85). -/

namespace Sys2Proof.Machine

/-! ### The quiet condition -/

/-- The quiet condition in R10's words. -/
def quietNow (e : Device) : Prop := (∀ c, (e.ctx c).state = .free) ∧ ∀ x ∈ e.queue, ∃ w, x = .plain w

theorem journalled_eq_false_iff (x : QEntry) : (!x.journalled) = true ↔ ∃ w, x = .plain w := by
  cases x <;> simp [QEntry.journalled]

theorem quiet_iff (e : Device) : e.quiet = true ↔ quietNow e := by
  unfold Device.quiet quietNow
  rw [Bool.and_eq_true, List.all_eq_true, List.all_eq_true]
  refine and_congr ⟨fun h c => ?_, fun h x hx => ?_⟩ (forall₂_congr fun x _ => journalled_eq_false_iff x)
  · exact of_decide_eq_true (h _ (Vector.mem_toList_iff.mpr (Vector.getElem_mem c.isLt)))
  · obtain ⟨i, hi, rfl⟩ := Vector.mem_iff_getElem.mp (Vector.mem_toList_iff.mp hx)
    exact decide_eq_true (h ⟨i, hi⟩)

theorem copyIfQuiet_of_copies {d : Device} (h : d.regions.applyWaiting = true ∧ quietNow d) :
    d.copyIfQuiet = d.applyCopy := if_pos ⟨h.1, (quiet_iff d).mpr h.2⟩

theorem copyIfQuiet_of_not {d : Device} (h : ¬ (d.regions.applyWaiting = true ∧ quietNow d)) : d.copyIfQuiet = d :=
  if_neg fun k => h ⟨k.1, (quiet_iff d).mp k.2⟩

/-! ### The waiting cycle -/

section
variable {d : Device} {ended : WaitCond → Bool}

theorem wake_of_ended {w : Waiting} (hw : d.host.mode = .waiting w) (he : ended w.cond = true) :
    d.wake ended = d.evaluate w.cycle := by
  unfold Device.wake
  simp only [hw, he, if_true]

theorem wake_of_none_ended (h : ∀ w, d.host.mode = .waiting w → ended w.cond = false) : d.wake ended = d := by
  unfold Device.wake
  split
  · next w hw => rw [h w hw]; rfl
  · rfl

theorem wakes_of_ended {w : Waiting} (hw : d.host.mode = .waiting w) (he : ended w.cond = true) :
    d.wakes ended = true := by
  unfold Device.wakes
  simp only [hw, he]

theorem wakes_of_none_ended (h : ∀ w, d.host.mode = .waiting w → ended w.cond = false) : d.wakes ended = false := by
  unfold Device.wakes
  split
  · next w hw => exact h w hw
  · rfl

theorem observe_of_one (h : ¬ ((d.regions.applyWaiting = true ∧ quietNow d) ∧ d.wakes ended = true)) :
    d.observe ended = d.copyIfQuiet.wake ended :=
  if_neg fun k => h ⟨⟨k.1, (quiet_iff d).mp k.2.1⟩, k.2.2⟩

theorem observe_of_both (hc : d.regions.applyWaiting = true ∧ quietNow d) (hw : d.wakes ended = true) :
    d.observe ended = if Config.copyFirst d.drawn then Device.wake (Device.applyCopy { d with drawn := d.drawn + 1 }) ended
      else Device.copyIfQuiet (Device.wake { d with drawn := d.drawn + 1 } ended) :=
  if_pos ⟨hc.1, (quiet_iff d).mpr hc.2, hw⟩

end

/-! ### The wait timer -/

/-- What the mode keeps of a wait's timer: a wait that goes on has it, and a READ that is served carries it (R30). -/
def timerKept (t : WaitTimer) (m : HostMode) : Prop :=
  (∀ w, m = .waiting w → w.timer = t) ∧ ∀ r, m = .reading r → r.timer = some t

theorem timerKept_idle (t : WaitTimer) : timerKept t .idle := ⟨nofun, nofun⟩

theorem timerKept_waiting {t : WaitTimer} {w : Waiting} (h : w.timer = t) : timerKept t (.waiting w) :=
  ⟨fun _ hv => HostMode.waiting.inj hv ▸ h, nofun⟩

section
variable {d : Device} {w : Waiting}

theorem timerKept_waitOn (h : d.host.mode = .waiting w) (c : Cycle) (k : WaitCond) :
    timerKept w.timer (d.waitOn c k).host.mode := by
  refine timerKept_waiting ?_
  simp only [Device.waitTimer, h]

theorem serve_host (d : Device) (c : ReadCycle) (o : BurstOrder) (f : Fin 8 → Nat) : ∃ r, r.timer =
    (match d.host.mode with
      | .waiting w => some w.timer
      | _ => none) ∧ (d.serve c o f).host.mode = .reading r := by
  unfold Device.serve
  extract_lets words inLineOrder todo timer r
  exact ⟨r, rfl, congrArg HostPort.mode (requestHostLine_frame _ todo .host (by decide))⟩

theorem timerKept_serve (h : d.host.mode = .waiting w) (c : ReadCycle) (o : BurstOrder) (f : Fin 8 → Nat) :
    timerKept w.timer (d.serve c o f).host.mode := by
  obtain ⟨r, hr, hmode⟩ := serve_host d c o f
  rw [hmode]
  simp only [h] at hr
  exact ⟨nofun, fun r' hr' => HostMode.reading.inj hr' ▸ hr⟩

theorem timerKept_evalRead (h : d.host.mode = .waiting w) (c : ReadCycle) (o : BurstOrder) :
    timerKept w.timer (d.evalRead c o).host.mode := by
  unfold Device.evalRead
  split
  · exact timerKept_idle _
  · split
    · exact timerKept_idle _
    · exact timerKept_idle _
    · dsimp only
      split
      · exact timerKept_waitOn h _ _
      · split
        · exact timerKept_serve h _ _ _
        · split
          · exact timerKept_waitOn h _ _
          · split <;> exact timerKept_serve h _ _ _

theorem timerKept_requestReclaim (h : timerKept w.timer d.host.mode) : timerKept w.timer d.requestReclaim.host.mode := by
  rw [requestReclaim_frame d .host (by decide)]
  exact h

theorem timerKept_admitEntry (h : d.host.mode = .waiting w) (c : WriteCycle) (o : BurstOrder) (e : QEntry) :
    timerKept w.timer (d.admitEntry c o e).host.mode := by
  unfold Device.admitEntry
  split
  · exact timerKept_waitOn h _ _
  · exact timerKept_idle _

theorem timerKept_admitLogged (h : d.host.mode = .waiting w) (c : WriteCycle) (o : BurstOrder) (x : Ctx) (n : WordSet) :
    timerKept w.timer (d.admitLogged c o x n).host.mode := by
  unfold Device.admitLogged
  dsimp only
  split
  · split
    · exact timerKept_requestReclaim (timerKept_waitOn h _ _)
    · exact timerKept_idle _
  · split
    · exact timerKept_waitOn h _ _
    · exact timerKept_idle _

theorem timerKept_admitByTag (h : d.host.mode = .waiting w) (c : WriteCycle) (o : BurstOrder) (m : RegionMode) :
    timerKept w.timer (d.admitByTag c o m).host.mode := by
  unfold Device.admitByTag
  split
  · split
    · exact timerKept_idle _
    · exact timerKept_admitEntry h _ _ _
  · split
    · unfold Device.admitTagged
      dsimp only
      split
      · split
        · exact timerKept_admitEntry h _ _ _
        · exact timerKept_admitLogged h _ _ _ _
      · split
        · exact timerKept_idle _
        · exact timerKept_admitLogged h _ _ _ _
    · exact timerKept_idle _

theorem timerKept_admitJournalled (h : d.host.mode = .waiting w) (c : WriteCycle) (o : BurstOrder) (m : RegionMode) :
    timerKept w.timer (d.admitJournalled c o m).host.mode := by
  unfold Device.admitJournalled
  split
  · split
    · split
      · exact timerKept_idle _
      · exact timerKept_waitOn h _ _
    · exact timerKept_admitByTag h _ _ _
  · exact timerKept_admitByTag h _ _ _

theorem timerKept_evalWrite (h : d.host.mode = .waiting w) (c : WriteCycle) (o : BurstOrder) :
    timerKept w.timer (d.evalWrite c o).host.mode := by
  unfold Device.evalWrite
  split
  · exact timerKept_idle _
  · split
    · exact timerKept_idle _
    · exact timerKept_idle _
    · split
      · exact timerKept_idle _
      · split
        · exact timerKept_idle _
        · split
          · exact timerKept_admitEntry h _ _ _
          · exact timerKept_admitJournalled h _ _ _

theorem timerKept_evalOpen (h : d.host.mode = .waiting w) (c : Ctx) :
    timerKept w.timer (d.evalOpen c).host.mode := by
  unfold Device.evalOpen
  split
  · exact timerKept_idle _
  · split
    · exact timerKept_idle _
    · split
      · exact timerKept_idle _
      · split
        · split
          · exact timerKept_requestReclaim (timerKept_waitOn h _ _)
          · exact timerKept_idle _
        · split
          · exact timerKept_waitOn h _ _
          · exact timerKept_idle _

theorem timerKept_evalCommit (h : d.host.mode = .waiting w) (c : Ctx) :
    timerKept w.timer (d.evalCommit c).host.mode := by
  unfold Device.evalCommit
  split
  · split
    · exact timerKept_waitOn h _ _
    · have hplace := placeEntry_frame (d.commitWaits c) (.commitEntry c (d.ctx c).inst)
      rw [takeCommit_eq, hplace .host (by decide)]
      exact timerKept_waitOn (d := d.closingFor c) h _ _
  · exact timerKept_idle _
  · exact timerKept_idle _
  · exact timerKept_idle _
  · exact timerKept_idle _

/-- Evaluated again, a waiting cycle keeps its timer (R30). -/
theorem timerKept_evaluate (h : d.host.mode = .waiting w) (c : Cycle) :
    timerKept w.timer (d.evaluate c).host.mode := by
  cases c with
  | read c o => exact timerKept_evalRead h c o
  | write c o => exact timerKept_evalWrite h c o
  | openMark c => exact timerKept_evalOpen h c
  | commitMark c => exact timerKept_evalCommit h c

end

/-! ### The conditions that end -/

theorem endedByDeparture_iff (e : QEntry) (c : WaitCond) : endedByDeparture e c = true ↔
    c = .queueSpace ∨ ∃ l, c = .readAfterWrite l ∧ e.line? = some l := by
  cases c <;> simp [endedByDeparture]

theorem endedByRelease_iff (i : Word) (c : WaitCond) : endedByRelease i c = true ↔ c = .ownersRelease i := by
  cases c <;> simp [endedByRelease]

theorem endedByRoom_iff (c : WaitCond) : endedByRoom c = true ↔ c = .journalRoom := by
  cases c <;> simp [endedByRoom]

theorem endedByRecord_iff (kind : RecKind) (i : Word) (rose : Bool) (c : WaitCond) :
    endedByRecord kind i rose c = true ↔ (c = .queueSpace ∧ (kind = .openRec ∨ kind = .commit))
      ∨ (c = .ownersRelease i ∧ (kind = .commit ∨ kind = .done)) ∨ (c = .journalRoom ∧ rose = true) := by
  have hline : (QEntry.openEntry 0 i).line? = none := rfl
  unfold endedByRecord
  simp only [Bool.or_eq_true, Bool.and_eq_true, decide_eq_true_eq, endedByDeparture_iff, endedByRelease_iff,
    endedByRoom_iff, hline]
  simp only [reduceCtorEq, and_false, exists_false, or_false]
  tauto

/-! ### What a step shows -/

/-- Settles O42: the copy and the evaluation, each where it is due. -/
theorem waitingCycleSeesTheStep : Obligations.WaitingCycleSeesTheStep := by
  intro d ended quiet copied copies
  refine ⟨fun hnone hcopies => ?_, fun hnone hcopies => ?_, fun w hw he hcopies => ?_, fun w hw he hcopies => ?_,
    fun s hs => ?_, fun w hw => timerKept_evaluate hw w.cycle, endedByDeparture_iff, endedByRelease_iff, endedByRoom_iff,
    endedByRecord_iff⟩
  · rw [observe_of_one fun k => hcopies k.1, copyIfQuiet_of_not hcopies, wake_of_none_ended hnone]
  · rw [observe_of_one fun k => absurd (k.2.symm.trans (wakes_of_none_ended hnone)) (by decide),
      copyIfQuiet_of_copies hcopies]
    exact wake_of_none_ended (d := d.applyCopy) hnone
  · rw [observe_of_one fun k => hcopies k.1, copyIfQuiet_of_not hcopies, wake_of_ended hw he]
  · intro d1 later
    have hlater : d1.wake ended = later := wake_of_ended (d := d1) hw he
    rw [observe_of_both hcopies (wakes_of_ended hw he)]
    split
    · exact Or.inl (wake_of_ended (d := d1.applyCopy) hw he)
    · rw [hlater]
      by_cases hc : later.regions.applyWaiting = true ∧ quietNow later
      · exact Or.inr (Or.inr ⟨copyIfQuiet_of_copies hc, hc⟩)
      · exact Or.inr (Or.inl ⟨copyIfQuiet_of_not hc, hc⟩)
  · obtain ⟨hrun, hidle⟩ := hs
    intro d0 order evaluated
    have running : ∀ (zeros : List Word) (eval : Device → Device),
        (.next (s.withDev (s.dev.takeCycle zeros eval)) : Host.Outcome State Fault Refusal)
          = .next (s.withDev (eval d0).settle) := fun zeros eval => by
      rw [takeCycle_running zeros eval hidle hrun]
    refine ⟨fun c => ?_, fun c hl => ?_, fun m c => ⟨fun hm => ?_, fun hm => ?_⟩⟩
    · exact (exec_hostRead c s).trans (running _ _)
    · exact (exec_hostWrite hl s).trans (running _ _)
    · exact (exec_openMark hm s).trans (running _ _)
    · exact (exec_commitMark hm s).trans (running _ _)

end Sys2Proof.Machine
end

section
/-! A header of a retirement pass is read (R116, R117, R127, R181). -/

namespace Sys2Proof.Machine

/-! ### What is asked for at the end of a command -/

theorem anchorIssued.kept {e f : Device} (h : anchorIssued e) (ha : f.journal.anchor = e.journal.anchor)
    (hq : f.journal.tailSeq = e.journal.tailSeq) (hi : f.journal.nextInst = e.journal.nextInst)
    (hp : f.part.straps = e.part.straps) (hg : PortGrows e f) : anchorIssued f := fun a hf => by
  rw [hq, hi, anchorLine_congr hp]
  exact hg.asked (h a (ha.symm.trans hf))

theorem Journal.tailSeq_congr {j k : Journal} (hp : k.pass.bind (·.expected) = j.pass.bind (·.expected))
    (ht : k.tailRec = j.tailRec) (hn : k.nextSeq = j.nextSeq) : k.tailSeq = j.tailSeq := by
  unfold Journal.tailSeq
  rw [hp, ht, hn]

theorem closeStart_grows (d : Device) : PortGrows d d.closeStart := by
  unfold Device.closeStart
  split
  · exact issueAnchor_grows d _
  · exact .refl d

/-- The closing anchor write is requested where it is issued (R181). -/
theorem anchorIssued.closeStart {d : Device} (h : anchorIssued d) : anchorIssued d.closeStart := by
  unfold Device.closeStart
  split
  · exact issueAnchor_issued (by decide)
  · exact h

theorem asksAlike_tryEnter (d : Device) : AsksAlike d d.tryEnter :=
  ⟨tryEnter_frame d .journal (by decide), by rw [tryEnter_frame d .part (by decide)],
    fun a _ ha => by rwa [asked_tryEnter]⟩

theorem anchorIssued.settle {d : Device} (h : anchorIssued d) : anchorIssued d.settle :=
  h.closeStart.alike ((asksAlike_tryEnter _).trans (asksAlike_grant _))

theorem headerRequested.settle {d : Device} (h : headerRequested d) : headerRequested d.settle := by
  have hclose : headerRequested d.closeStart := by
    unfold Device.closeStart
    split
    · exact fun hp => (issueAnchor_grows d _).asked (h hp)
    · exact h
  exact hclose.alike ((asksAlike_tryEnter _).trans (asksAlike_grant _))

theorem closed_of_not_starting {d : Device} (j : Journal) (h : d.part.state ≠ .starting) : d.closed j = j :=
  if_neg fun k => h k.1

theorem closed_of_pass {d : Device} {j : Journal} (h : j.pass ≠ none) : d.closed j = j :=
  if_neg fun k => h k.2.2.2.1

theorem closed_congr {d e : Device} (hp : e.part = d.part) (hr : e.rollback = d.rollback) (j : Journal) :
    e.closed j = d.closed j := by
  unfold Device.closed
  rw [hp, hr]

/-! ### A pass that stops, goes on, or begins again -/

/-- The journal controller when a further pass that is flagged begins behind one that stopped (R115). -/
def Device.againPass (d : Device) (j : Journal) : Journal :=
  if j.pass = none ∧ j.passAgain = true then d.begunPass { j with passAgain := false } j.liveTail none else j

theorem begunPass_congr {d e : Device} (hp : e.part = d.part) (hm : e.mgmt = d.mgmt) (j : Journal) (start : Nat)
    (x : Option Word) : e.begunPass j start x = d.begunPass j start x := by
  unfold Device.begunPass Device.stoppedPass Device.ring
  rw [hp, hm]

theorem againPass_congr {d e : Device} (hp : e.part = d.part) (hm : e.mgmt = d.mgmt) (j : Journal) :
    e.againPass j = d.againPass j := by
  unfold Device.againPass
  rw [begunPass_congr hp hm]

theorem passNext_journal (d : Device) : d.passNext.journal = d.againPass d.journal := by
  unfold Device.passNext Device.againPass
  split
  · exact beginPass_journal { d with journal := { d.journal with passAgain := false } }
  · rfl

theorem passHalt_journal (d : Device) (p : Pass) : (d.passHalt p).journal = d.stoppedPass d.journal p.start
    d.journal.liveTail (if d.journal.liveTail = d.journal.head then none else d.journal.tailRec) := by
  unfold Device.passHalt
  split
  · exact passStop_journal { d with journal := { d.journal with tailRec := none } } p
  · exact passStop_journal d p

/-- `k` is `j` with its pass stopped at `tail` with the tail record `t`: no reclaim is in its pass stage. -/
structure PassStopped (j : Journal) (tail : Nat) (t : Option TailId) (k : Journal) : Prop where
  liveTail : k.liveTail = tail
  head : k.head = j.head
  tailRec : k.tailRec = t
  reclaim : k.reclaim ≠ .inPass
  pass : k.pass = none
  again : k.passAgain = j.passAgain

theorem stoppedPass_stopped (d : Device) (j : Journal) (start tail : Nat) (t : Option TailId) :
    PassStopped j tail t (d.stoppedPass j start tail t) := by
  unfold Device.stoppedPass
  extract_lets rises debt j1
  by_cases h : j.reclaim = .inPass
  · rw [if_pos h]
    split <;> exact ⟨rfl, rfl, rfl, nofun, rfl, rfl⟩
  · rw [if_neg h]
    split <;> exact ⟨rfl, rfl, rfl, h, rfl, rfl⟩

/-- A pass that a command begins and that stops at once stands at the head. -/
theorem begunPass_of_stopped {d : Device} {j : Journal} {start : Nat} {x : Option Word}
    (h : (d.begunPass j start x).pass = none) :
    let k := d.begunPass j start x
    k.liveTail = k.head ∧ k.tailRec = none ∧ k.reclaim ≠ .inPass := by
  intro k
  have stops : ∀ tail, k = d.stoppedPass j start tail none → tail = j.head →
      k.liveTail = k.head ∧ k.tailRec = none ∧ k.reclaim ≠ .inPass := fun tail hk htail => by
    have h := stoppedPass_stopped d j start tail none
    rw [hk]
    exact ⟨h.liveTail.trans (htail.trans h.head.symm), h.tailRec, h.reclaim⟩
  by_cases h1 : j.liveTail = j.head
  · exact stops j.liveTail (if_pos h1) h1
  · by_cases h2 : 6 ≤ d.ring - j.liveTail
    · have hk : k = _ := (if_neg h1).trans (if_pos h2)
      exact absurd ((congrArg Journal.pass hk).symm.trans h) (by simp)
    · by_cases h3 : j.head = 0
      · exact stops 0 ((if_neg h1).trans ((if_neg h2).trans (if_pos h3))) h3.symm
      · have hk : k = _ := (if_neg h1).trans ((if_neg h2).trans (if_neg h3))
        exact absurd ((congrArg Journal.pass hk).symm.trans h) (by simp)

theorem passNext_of_pass {d : Device} (h : d.journal.pass ≠ none) : d.passNext = d := if_neg fun k => h k.1

theorem passNext_of_not_again {d : Device} (h : d.journal.passAgain = false) : d.passNext = d :=
  if_neg fun k => by simp [h] at k

theorem passNext_requested {d : Device} (h : headerRequested d) : headerRequested d.passNext := by
  unfold Device.passNext
  split
  · exact beginPass_requested _
  · exact h

/-- A pass that stops where it began, with no reclaim in its pass stage, issues nothing. -/
theorem passStop_still {d : Device} {p : Pass} (hs : p.start = d.journal.liveTail) (hr : d.journal.reclaim ≠ .inPass) :
    d.passStop p = { d with journal := { d.journal with pass := none } } := by
  unfold Device.passStop
  simp only [hs, hr, ne_eq, not_true_eq_false, decide_false, Bool.false_and, if_false, false_and, Bool.false_eq_true]

/-- Behind a pass that stopped at the head a further one stops there too. -/
theorem passNext_issued_of_stopped {d : Device} (h : anchorIssued d) (hlive : d.journal.liveTail = d.journal.head)
    (ht : d.journal.tailRec = none) (hr : d.journal.reclaim ≠ .inPass) : anchorIssued d.passNext := by
  unfold Device.passNext
  split
  · next hc =>
    let d1 : Device := { d with journal := { d.journal with passAgain := false } }
    have hstop : d1.beginPass
        = { d1 with journal := { d1.journal with tailRec := none, pass := none } } :=
      (if_pos hlive).trans (passStop_still (d := { d1 with journal := { d1.journal with tailRec := none } }) rfl hr)
    rw [show Device.beginPass { d with journal := { d.journal with passAgain := false } } = d1.beginPass from rfl, hstop]
    exact h.kept rfl (Journal.tailSeq_congr (by simp [hc.1]) ht.symm rfl) rfl rfl (.of_port rfl)
  · exact h

/-- Behind a pass that stopped before a header, a further one reads the header, and the tail record stands. -/
theorem passNext_issued_of_header {d : Device} (h : anchorIssued d) (hlive : d.journal.liveTail ≠ d.journal.head)
    (hfit : 6 ≤ d.ring - d.journal.liveTail) : anchorIssued d.passNext := by
  unfold Device.passNext
  split
  · next hc =>
    let d1 : Device := { d with journal := { d.journal with passAgain := false } }
    let p : Pass := { start := d.journal.liveTail, words := [], expected := none }
    have hfit' : ¬ d1.ring - d1.journal.liveTail < Config.headerLength := not_lt.mpr hfit
    have hrun : d1.beginPass
        = Device.requestHeader { d1 with journal := { d1.journal with pass := some p } } d1.journal.liveTail :=
      (if_neg hlive).trans (if_neg hfit')
    rw [show Device.beginPass { d with journal := { d.journal with passAgain := false } } = d1.beginPass from rfl, hrun]
    have hexpected : (some p).bind (·.expected) = d.journal.pass.bind (·.expected) := by simp [hc.1, p]
    exact h.kept rfl (Journal.tailSeq_congr hexpected rfl rfl) rfl rfl ((PortGrows.request _ _).of_start rfl)
  · exact h

/-! ### The header -/

theorem exec_headerReadComplete {s : State} {line : Nat} (h : s.inFlight (.read .header line) line) :
    exec .headerReadComplete s = s.onDevice (s.dev.landed.headerLine (s.dev.dram.readLine line)) := by
  change execHeaderReadComplete s = _
  unfold execHeaderReadComplete
  rw [readDone_of_inFlight h]

section
variable {d : Device} {p : Pass} {ws : List Word}

theorem headerLine_ignored (h : d.journal.pass = none) : d.headerLine ws = .next d.settle := by
  unfold Device.headerLine
  rw [h]

/-- The words of the header in hand, with those of the line read (R116). -/
def Device.headerWords (d : Device) (p : Pass) (ws : List Word) : List Word :=
  p.words ++ ws.drop ((d.journal.liveTail + p.words.length) % 8)

theorem headerLine_more (h : d.journal.pass = some p) (hl : (d.headerWords p ws).length < 4) :
    d.headerLine ws = .next (Device.requestHeader
      { d with journal := { d.journal with pass := some { p with words := d.headerWords p ws } } }
      (d.journal.liveTail + (d.headerWords p ws).length)).settle := by
  unfold Device.headerLine
  rw [h]
  exact if_pos hl

theorem headerLine_read {t : TailId} (h : d.journal.pass = some p) (hl : 4 ≤ (d.headerWords p ws).length)
    (ht : headerNames (d.headerWords p ws) t) :
    d.headerLine ws = .next (d.headerRead { p with words := d.headerWords p ws } t).settle := by
  have hid : headerIdentity (gather d.journal.liveTail p.words ws) = some t := (headerIdentity_iff _ t).mpr ht
  unfold Device.headerLine
  rw [h]
  refine (if_neg (not_lt.mpr hl)).trans ?_
  simp only [hid]
  rfl

theorem headerRead_unfinished {t : TailId} (h : ¬ recordFinished d t) : d.headerRead p t =
    (Device.passStop { d with journal := { d.journal with tailRec := some t } } p).passNext :=
  if_neg fun k => h ((finished_iff d t).mp k)

theorem headerRead_passed {t : TailId} (h : recordFinished d t) (hs : d.part.state ≠ .holding) : d.headerRead p t =
    ((d.retire t (headerLengthOf p.words)).passRun { p with expected := some (t.seq + 1) }).passNext :=
  (if_pos ((finished_iff d t).mpr h)).trans (if_neg hs)

theorem headerRead_halted {t : TailId} (h : recordFinished d t) (hs : d.part.state = .holding) : d.headerRead p t =
    (d.retire t (headerLengthOf p.words)).passHalt p :=
  (if_pos ((finished_iff d t).mpr h)).trans (if_pos hs)

end

theorem recordFinished_congr {d e : Device} (h : e.contexts = d.contexts) (t : TailId) :
    recordFinished e t ↔ recordFinished d t := by
  unfold recordFinished
  simp only [Device.ctx_congr h]

/-- Settles O46: the pass stops, goes on or halts; a further one may begin behind it, and a start may close. -/
theorem headerReadCompletes : Obligations.HeaderReadCompletes := by
  intro s line hfly j again asked ends
  let u := s.dev.landed
  have hu : unchangedBut [.port] s.dev u := landed_frame _
  have hexec := exec_headerReadComplete hfly
  have closes : ∀ e : Device, unchangedBut [.journal, .port] u e → ∀ {r}, r = e.settle →
      exec .headerReadComplete s = .next (s.withDev r) →
      exec .headerReadComplete s = .next (s.withDev e.settle) ∧ unchangedBut [.journal, .engine, .port] s.dev e.settle
      ∧ e.settle.journal = s.dev.closed e.journal := fun e he r hr h => by
    subst hr
    refine ⟨h, ?_, ?_⟩
    · exact (hu.comp he (by decide) (by decide) : unchangedBut [.journal, .port] s.dev e).comp (settle_frame e)
        (by decide) (by decide)
    · rw [settle_journal]
      exact closed_congr (he .part (by decide)) (he .rollback (by decide)) _
  have asks : ∀ e : Device, unchangedBut [.journal, .port] u e → headerRequested e → (j.anchor = none → anchorIssued e) →
      asked e.settle := fun e he hh ha => by
    have hstraps : e.settle.part.straps = s.dev.part.straps := by
      rw [settle_frame e .part (by decide), he .part (by decide)]
      rfl
    refine ⟨fun hp => ?_, anchorAsked_of_issued fun hj => (ha hj).settle⟩
    rw [← hstraps]
    exact hh.settle hp
  refine ⟨fun hp => ?_, fun p hp => ?_⟩
  · rw [headerLine_ignored (d := u) hp] at hexec
    obtain ⟨he, hf, hj⟩ := closes u (.refl _ _) rfl hexec
    exact ⟨_, he, hf, hj, anchorAsked_of_issued fun ha => (anchorIssued_of_none (e := u) ha).settle⟩
  · intro ws
    refine ⟨fun hlen => ?_, fun t hlen hnames => ?_⟩
    · let v : Device := { u with journal := { u.journal with pass := some { p with words := ws } } }
      rw [headerLine_more (d := u) hp hlen] at hexec
      have hv : unchangedBut [.journal, .port] u (v.requestHeader (j.liveTail + ws.length)) :=
        (journal_frame u _).comp (request_frame v _) (by decide) (by decide)
      obtain ⟨he, hf, hj⟩ := closes (v.requestHeader (j.liveTail + ws.length)) hv rfl hexec
      refine ⟨_, he, hf, hj.trans (closed_of_pass (by simp [v, Device.requestHeader])), ?_⟩
      exact mem_asked_settle (by simp) (asked_request v _)
    · intro next
      rw [headerLine_read (d := u) hp hlen hnames] at hexec
      let p1 : Pass := { p with words := ws }
      refine ⟨fun hfin => ?_, fun hfin hstate => ?_, fun hfin hstate => ?_⟩
      · let v : Device := { u with journal := { u.journal with tailRec := some t } }
        let k := v.passStop p1
        rw [headerRead_unfinished (d := u) (mt (recordFinished_congr (d := s.dev) rfl t).mp hfin)] at hexec
        have hk : unchangedBut [.journal, .port] u k :=
          (journal_frame u _).comp (passStop_frame v p1) (by decide) (by decide)
        have hkn : unchangedBut [.journal, .port] u k.passNext := hk.trans (passNext_frame k)
        have hkj : k.journal = s.dev.stoppedPass j p.start j.liveTail (some t) := passStop_journal v p1
        have hstopped := stoppedPass_stopped s.dev j p.start j.liveTail (some t)
        rw [← hkj] at hstopped
        obtain ⟨he, hf, hj⟩ := closes k.passNext hkn rfl hexec
        refine ⟨_, he, hf, hj.trans ?_, fun hcase => asks _ hkn
          (passNext_requested (headerRequested_of_none hstopped.pass)) fun ha => ?_⟩
        · rw [passNext_journal, againPass_congr (d := s.dev) (hk .part (by decide)) (hk .mgmt (by decide)), hkj]
          rfl
        · have hissued : anchorIssued k := passStop_issued (d := v) p1 ha
          rcases hcase with hno | ⟨hlive, hfit⟩
          · rwa [passNext_of_not_again (hstopped.again.trans hno)]
          · refine passNext_issued_of_header hissued ?_ ?_
            · rwa [hstopped.liveTail, hstopped.head]
            · have hring : k.ring = s.dev.ring := by
                unfold Device.ring
                rw [hk .part (by decide)]
                rfl
              rwa [hring, hstopped.liveTail]
      · let v := u.retire t (headerLengthOf ws)
        let k := v.passRun { p1 with expected := some (t.seq + 1) }
        rw [headerRead_passed (d := u) ((recordFinished_congr (d := s.dev) rfl t).mpr hfin) hstate] at hexec
        have hk : unchangedBut [.journal, .port] u k :=
          (retire_frame u t _).comp (passRun_frame v _) (by decide) (by decide)
        have hkn : unchangedBut [.journal, .port] u k.passNext := hk.trans (passNext_frame k)
        have hkj : k.journal = s.dev.begunPass { j with liveTail := next } p.start (some (t.seq + 1)) :=
          passRun_journal v _
        obtain ⟨he, hf, hj⟩ := closes k.passNext hkn rfl hexec
        refine ⟨_, he, hf, hj.trans ?_, asks _ hkn (passNext_requested (passRun_requested v _)) fun ha => ?_⟩
        · rw [passNext_journal, againPass_congr (d := s.dev) (hk .part (by decide)) (hk .mgmt (by decide)), hkj]
          rfl
        · have hissued : anchorIssued k := passRun_issued (d := v) _ ha
          by_cases hpass : k.journal.pass = none
          · have hstopped := begunPass_of_stopped (d := s.dev) (hkj ▸ hpass)
            rw [← hkj] at hstopped
            obtain ⟨hlive, ht, hr⟩ := hstopped
            exact passNext_issued_of_stopped hissued hlive ht hr
          · rwa [passNext_of_pass hpass]
      · let v := u.retire t (headerLengthOf ws)
        rw [headerRead_halted (d := u) ((recordFinished_congr (d := s.dev) rfl t).mpr hfin) hstate] at hexec
        have hk : unchangedBut [.journal, .port] u (v.passHalt p1) :=
          (retire_frame u t _).comp (passHalt_frame v p1) (by decide) (by decide)
        obtain ⟨he, hf, hj⟩ := closes (v.passHalt p1) hk rfl hexec
        refine ⟨_, he, hf, hj.trans ((closed_of_not_starting _ (by rw [hstate]; decide)).trans ?_)⟩
        exact passHalt_journal v p1

end Sys2Proof.Machine
end

section
/-! An anchor write completes (R114, R119-R121, R181). -/

namespace Sys2Proof.Machine

/-! ### A request shows in the journal controller -/

/-- Where the pass stands and no anchor write is in hand, nothing was asked of the port. -/
def asksShown (d e : Device) : Prop :=
  e.journal.pass = d.journal.pass → e.journal.anchor = none → e.port = d.port

theorem asksShown_of_port {d e : Device} (h : e.port = d.port) : asksShown d e := fun _ _ => h

theorem asksShown_issueAnchor (d : Device) (why : AnchorUse) : asksShown d (d.issueAnchor why) :=
  fun _ h => absurd ((congrArg Journal.anchor (issueAnchor_journal d why)).symm.trans h) (by simp)

/-- With no anchor write in hand nothing was asked of the port. -/
def asksAnchorOnly (d e : Device) : Prop := e.journal.anchor = none → e.port = d.port

theorem asksAnchorOnly_issueAnchor (d : Device) (why : AnchorUse) : asksAnchorOnly d (d.issueAnchor why) :=
  asksShown_issueAnchor d why rfl

theorem asksAnchorOnly_forcedAnchor (d : Device) : asksAnchorOnly d d.requestForcedAnchor := by
  unfold Device.requestForcedAnchor
  split
  · exact asksAnchorOnly_issueAnchor d _
  · exact fun _ => rfl

/-- A pass that stops asks for an anchor write, or for nothing. -/
theorem asksAnchorOnly_passStop (d : Device) (p : Pass) : asksAnchorOnly d (d.passStop p) := by
  unfold Device.passStop
  extract_lets j rises debt d1
  split
  · exact asksAnchorOnly_forcedAnchor { d with journal := _ }
  · split
    · exact asksAnchorOnly_issueAnchor d1 _
    · exact fun _ => rfl

/-- A pass that begins where none runs asks for its header, or stops. -/
theorem asksShown_beginPass {d : Device} (hp : d.journal.pass = none) : asksShown d d.beginPass := by
  have reads : ∀ (k : Journal) (n : Nat), k.pass ≠ none → asksShown d (Device.requestHeader { d with journal := k } n) :=
    fun k n hk hpass => absurd (hpass.trans hp) hk
  unfold Device.beginPass Device.passRun
  extract_lets j
  split
  · exact fun _ => asksAnchorOnly_passStop { d with journal := _ } _
  · split
    · split
      · exact fun _ => asksAnchorOnly_passStop { d with journal := _ } _
      · exact reads _ _ (by simp)
    · exact reads _ _ (by simp)

theorem asksShown_requestReclaim (d : Device) : asksShown d d.requestReclaim := by
  unfold Device.requestReclaim
  split
  · exact asksShown_of_port rfl
  · exact asksShown_of_port rfl
  · split
    · next hp => exact asksShown_beginPass (d := { d with journal := { d.journal with reclaim := .inPass } }) hp
    · exact asksShown_of_port rfl

/-! ### The end of a reclaim -/

theorem endReclaim_again {d : Device} (h : d.journal.reclaimAgain = true) : d.endReclaim =
    Device.requestReclaim { d with journal := { d.journal with reclaim := .idle, reclaimAgain := false } } := if_pos h

theorem endReclaim_done {d : Device} (h : d.journal.reclaimAgain = false) :
    d.endReclaim = { d with journal := { d.journal with reclaim := .idle } } := by
  unfold Device.endReclaim
  rw [h]
  cases d with
  | mk host regions contexts own queue engine journal rollback port part mgmt dram drawn =>
    cases journal
    cases h
    rfl

theorem reclaimRequested_congr {d e : Device} (hp : e.part = d.part) (hm : e.mgmt = d.mgmt) (j : Journal) :
    e.reclaimRequested j = d.reclaimRequested j := by
  unfold Device.reclaimRequested
  simp only [begunPass_congr hp hm]

/-- What the end of a forced reclaim makes of the journal controller (R114, R121). -/
theorem endReclaim_journal (d : Device) : d.endReclaim.journal =
    if d.journal.reclaimAgain then d.reclaimRequested { d.journal with reclaim := .idle, reclaimAgain := false }
    else { d.journal with reclaim := .idle } := by
  cases h : d.journal.reclaimAgain with
  | true =>
    rw [endReclaim_again h, if_pos rfl]
    exact requestReclaim_journal _
  | false =>
    rw [endReclaim_done h]
    exact (if_neg (by decide)).symm

theorem asksShown_endReclaim (d : Device) : asksShown d d.endReclaim := by
  cases h : d.journal.reclaimAgain with
  | true =>
    rw [endReclaim_again h]
    exact asksShown_requestReclaim { d with journal := { d.journal with reclaim := .idle, reclaimAgain := false } }
  | false =>
    rw [endReclaim_done h]
    exact asksShown_of_port rfl

theorem endReclaim_issued {d : Device} (h : d.journal.anchor = none) : anchorIssued d.endReclaim := by
  cases hr : d.journal.reclaimAgain with
  | true =>
    rw [endReclaim_again hr]
    exact requestReclaim_issued h
  | false =>
    rw [endReclaim_done hr]
    exact anchorIssued_of_none h

theorem endReclaim_requested {d : Device} (h : d.journal.pass = none) : headerRequested d.endReclaim := by
  cases hr : d.journal.reclaimAgain with
  | true =>
    rw [endReclaim_again hr]
    exact requestReclaim_requested h
  | false =>
    rw [endReclaim_done hr]
    exact headerRequested_of_none h

/-! ### What the anchor writer does next -/

section
variable {d : Device} {w : AnchorWrite}

theorem anchorNext_format (h : d.journal.formatting = true) : d.anchorNext w = d.issueAnchor .format := if_pos h

theorem anchorNext_satisfied (h : d.journal.formatting = false) (hf : d.journal.forcedPending = true)
    (ht : w.tail = d.journal.liveTail) :
    d.anchorNext w = Device.endReclaim { d with journal := { d.journal with forcedPending := false } } :=
  (if_neg (by simp [h])).trans ((if_pos hf).trans (if_pos ht))

theorem anchorNext_forced (h : d.journal.formatting = false) (hf : d.journal.forcedPending = true)
    (ht : w.tail ≠ d.journal.liveTail) :
    d.anchorNext w = Device.issueAnchor { d with journal := { d.journal with forcedPending := false } } .forced :=
  (if_neg (by simp [h])).trans ((if_pos hf).trans (if_neg ht))

theorem anchorNext_own (h : d.journal.formatting = false) (hf : d.journal.forcedPending = false) :
    d.anchorNext w = if w.why = .forced then d.endReclaim else d :=
  (if_neg (by simp [h])).trans (if_neg (by simp [hf]))

end

theorem asksShown_anchorNext (d : Device) (w : AnchorWrite) : asksShown d (d.anchorNext w) := by
  cases h : d.journal.formatting with
  | true =>
    rw [anchorNext_format h]
    exact asksShown_issueAnchor d _
  | false =>
    let e : Device := { d with journal := { d.journal with forcedPending := false } }
    cases hf : d.journal.forcedPending with
    | true =>
      by_cases ht : w.tail = d.journal.liveTail
      · rw [anchorNext_satisfied h hf ht]
        exact asksShown_endReclaim e
      · rw [anchorNext_forced h hf ht]
        exact asksShown_issueAnchor e _
    | false =>
      rw [anchorNext_own h hf]
      split
      · exact asksShown_endReclaim d
      · exact asksShown_of_port rfl

/-! ### The end of a start -/

theorem enterRunning_journal (d : Device) : d.enterRunning.journal = d.journal :=
  enterRunning_frame d .journal (by decide)

theorem enterRunning_part (d : Device) : d.enterRunning.part = { d.part with
    state := .running, phase := none, report := { d.part.report with complete := true } } := by
  unfold Device.enterRunning
  dsimp only
  split <;> rfl

theorem enterRunning_mgmt (d : Device) : d.enterRunning.mgmt = { d.mgmt with causes :=
    if d.journal.cond = .valid ∧ d.free < (d.lowThreshold : Int) then (d.mgmt.causes ||| 8#7) ||| 4#7
    else d.mgmt.causes ||| 8#7 } := by
  let d1 := Device.raise { d with part := { d.part with
    state := .running, phase := none, report := { d.part.report with complete := true } } } .recoveryDone
  by_cases h : d.journal.cond = .valid ∧ d.free < (d.lowThreshold : Int)
  · have hrun : d.enterRunning = d1.raise .journalLow := if_pos h
    rw [hrun, if_pos h]
    rfl
  · have hrun : d.enterRunning = d1 := if_neg h
    rw [hrun, if_neg h]
    rfl

theorem anchorWritten_next {d : Device} {w : AnchorWrite} (h : w.why ≠ .format)
    (hs : ¬ (w.why = .closing ∧ d.part.state = .starting)) :
    d.anchorWritten w = ((d.anchorLanded w).anchorNext w).observe endedByRoom :=
  congrArg (fun e : Device => e.observe endedByRoom) ((if_neg h).trans (if_neg hs))

theorem anchorWritten_closing {d : Device} {w : AnchorWrite} (h : w.why = .closing) (hs : d.part.state = .starting) :
    d.anchorWritten w = (d.anchorLanded w).enterRunning.observe endedByRoom :=
  congrArg (fun e : Device => e.observe endedByRoom) ((if_neg (by rw [h]; decide)).trans (if_pos ⟨h, hs⟩))

/-- Settles O47: the landing of the write, and what the anchor writer does next or the start's end. -/
theorem anchorWriteCompletes : Obligations.AnchorWriteCompletes := by
  intro s forced x w hfly ha hwhy j ends satisfied starting
  let l := (s.dev.written x).anchorLanded w
  have hl : unchangedBut [.journal, .port, .dram] s.dev l :=
    (written_frame s.dev x).comp (journal_frame _ _) (by decide) (by decide)
  have hexec := exec_anchorWriteComplete hfly ha
  have next : ¬ starting → ∀ post : Device → Prop, post (l.anchorNext w) → ends [] post := fun hs post hpost => by
    rw [anchorWritten_next (d := s.dev.written x) hwhy hs] at hexec
    have hm := anchorNext_frame l w
    have hport := (anchorNext_grows l w).eq_waiting
    have hdram : (l.anchorNext w).dram = s.dev.dram.writeLine x := hm .dram (by decide)
    exact ⟨_, hexec, hl.comp hm (by decide) (by decide), hdram, writeLine_sameOutside hdram, hport,
      fun hp hn => Eq.trans (congrArg MemPort.waiting (asksShown_anchorNext l w hp hn)) rfl, hpost⟩
  have satisfies : ∀ e : Device, e.part = s.dev.part → e.mgmt = s.dev.mgmt → e.journal.reclaimAgain = j.reclaimAgain →
      e.endReclaim.journal = satisfied e.journal := fun e hp hm hr => by
    rw [endReclaim_journal, reclaimRequested_congr hp hm, hr]
  refine ⟨fun hs hf => ?_, fun hs hf hp => ?_, fun hs hf hp => ?_, fun hc hstate => ?_⟩
  · refine next hs _ ?_
    rw [anchorNext_format (d := l) hf]
    exact ⟨rfl, issueAnchor_format_asked l⟩
  · let e : Device := { l with journal := { l.journal with forcedPending := false } }
    refine next hs _ ?_
    by_cases ht : w.tail = j.liveTail
    · rw [anchorNext_satisfied (d := l) hf hp ht]
      refine ⟨(satisfies e rfl rfl rfl).trans (if_pos ht).symm, headerAsked_of_requested fun hpass => ?_,
        anchorAsked_of_issued fun _ => endReclaim_issued (d := e) rfl⟩
      exact endReclaim_requested (d := e) hpass
    · rw [anchorNext_forced (d := l) hf hp ht]
      exact ⟨(issueAnchor_journal e .forced).trans (if_neg ht).symm,
        headerAsked_of_requested fun hpass => headerRequested_of_none hpass,
        anchorAsked_of_issued fun _ => issueAnchor_issued (by decide)⟩
  · refine next hs _ ?_
    rw [anchorNext_own (d := l) hf hp]
    by_cases hforced : w.why = .forced
    · rw [if_pos hforced, if_pos hforced]
      exact ⟨satisfies l rfl rfl rfl, headerAsked_of_requested fun hpass => endReclaim_requested (d := l) hpass,
        anchorAsked_of_issued fun _ => endReclaim_issued (d := l) rfl⟩
    · rw [if_neg hforced, if_neg hforced]
      exact ⟨rfl, headerAsked_of_requested fun hpass => headerRequested_of_none hpass,
        anchorAsked_of_issued fun _ => anchorIssued_of_none rfl⟩
  · rw [anchorWritten_closing (d := s.dev.written x) hc hstate] at hexec
    have hm := enterRunning_frame l
    have hport : l.enterRunning.port = { s.dev.port with inFlight := none } := hm .port (by decide)
    have hdram : l.enterRunning.dram = s.dev.dram.writeLine x := hm .dram (by decide)
    have hfree : l.enterRunning.free = l.free := by
      have hring : l.enterRunning.ring = l.ring := by
        unfold Device.ring
        rw [enterRunning_part]
      unfold Device.free Device.used
      rw [hring, enterRunning_journal]
    refine ⟨l.enterRunning, hexec, hl.comp hm (by decide) (by decide), hdram, writeLine_sameOutside hdram, ?_,
      fun _ _ => ?_, enterRunning_journal l, enterRunning_part l, ?_, hport, ?_⟩
    · rw [hport]
    · rw [hport]
    · exact decide_eq_true (congrArg PartControl.state (enterRunning_part l))
    · rw [hfree]
      exact enterRunning_mgmt l

end Sys2Proof.Machine
end

section
/-! A data write completes: its entry leaves, and the engine goes on with its group or takes up the next entry (R85-R87,
R95, R135). -/

namespace Sys2Proof.Machine

/-! ### The head leaves -/

theorem headLeaves_of_cons {d : Device} {e : QEntry} {rest : List QEntry} (h : d.queue = e :: rest) :
    d.headLeaves = Device.countLeft { d with queue := rest } e := by
  unfold Device.headLeaves
  rw [h]

theorem headLeaves_ctx {d : Device} {e : QEntry} {rest : List QEntry} (h : d.queue = e :: rest) (c : Ctx) :
    d.headLeaves.ctx c
      = if e.ctx? = some c then { d.ctx c with queued := (d.ctx c).queued - 1 } else d.ctx c := by
  rw [headLeaves_of_cons h, countLeft_ctx]
  by_cases hx : e.ctx? = some c
  · rw [if_pos hx, if_pos hx]
    rfl
  · rw [if_neg hx, if_neg hx]
    rfl

/-! ### The engine goes on -/

section
variable {d : Device}

theorem afterData_member {g : Group} (h : d.engine = .groupData g) (hr : 1 < g.remaining) :
    d.afterData = Device.requestData { d with engine := .groupData { g with remaining := g.remaining - 1 } } := by
  unfold Device.afterData
  rw [h]
  exact if_pos hr

theorem afterData_next (h : ∀ g, d.engine = .groupData g → g.remaining ≤ 1) : d.afterData = d.engineNext := by
  unfold Device.afterData
  split
  · next g hg => exact if_neg (not_lt.mpr (h g hg))
  · rfl

theorem afterData_frame (d : Device) : unchangedBut [.engine, .journal, .mgmt, .port] d d.afterData := by
  by_cases h : ∃ g, d.engine = .groupData g ∧ 1 < g.remaining
  · obtain ⟨g, hg, hr⟩ := h
    rw [afterData_member hg hr]
    exact (engine_frame d _).comp (requestData_frame _) (by decide) (by decide)
  · rw [afterData_next fun g hg => not_lt.mp fun k => h ⟨g, hg, k⟩]
    exact (engineNext_frame d).mono (by decide)

end

/-- What the engine took up does not depend on more of the block it found than an append looks at. -/
theorem engineTook_congr {q : List QEntry} {d d' e : Device} (h : engineTook q d e)
    (hn : ∀ c, (d'.ctx c).newest = (d.ctx c).newest) (hp : d'.part = d.part) (hj : d'.journal = d.journal) :
    engineTook q d' e := by
  cases q with
  | nil => exact h
  | cons x q =>
    cases x with
    | openEntry c i =>
      refine ⟨h.1, fun ha => ?_⟩
      rw [placedAppend_congr (d := d) (Or.inl rfl) hp hj]
      exact h.2 (hj ▸ ha)
    | commitEntry c i =>
      refine ⟨h.1, fun ha => ?_⟩
      rw [placedAppend_congr (d := d) (Or.inr (hn c)) hp hj]
      exact h.2 (hj ▸ ha)
    | _ => exact h

/-- An append that is asked for settles no reservation and gives no sequence number (R107, R110). -/
theorem appendAsked_counts (d : Device) (who : Appender) (req : RecordReq) :
    (d.appendAsked who req).reserved = d.journal.reserved ∧ (d.appendAsked who req).nextSeq = d.journal.nextSeq
      ∧ (d.appendAsked who req).cond = d.journal.cond
      ∧ (d.appendAsked who req).anchoredTail = d.journal.anchoredTail
      ∧ (d.appendAsked who req).anchor = d.journal.anchor ∧ (d.appendAsked who req).pass = d.journal.pass := by
  unfold Device.appendAsked Device.placedJournal
  split
  · dsimp only
    split <;> exact ⟨rfl, rfl, rfl, rfl, rfl, rfl⟩
  · exact ⟨rfl, rfl, rfl, rfl, rfl, rfl⟩

theorem takenUp_counts (d : Device) (q : List QEntry) :
    (d.takenUp q).reserved = d.journal.reserved ∧ (d.takenUp q).nextSeq = d.journal.nextSeq
      ∧ (d.takenUp q).cond = d.journal.cond ∧ (d.takenUp q).anchoredTail = d.journal.anchoredTail
      ∧ (d.takenUp q).anchor = d.journal.anchor ∧ (d.takenUp q).pass = d.journal.pass := by
  cases q with
  | nil => exact ⟨rfl, rfl, rfl, rfl, rfl, rfl⟩
  | cons x q =>
    cases x with
    | openEntry c i => exact appendAsked_counts d _ _
    | commitEntry c i => exact appendAsked_counts d _ _
    | _ => exact ⟨rfl, rfl, rfl, rfl, rfl, rfl⟩

/-- Settles O41: the head leaves, the engine goes on, and the rollback engine selects. -/
theorem dataWriteCompletes : Obligations.DataWriteCompletes := by
  intro s w e rest hfly hq
  let u := s.dev.written w
  let h := u.headLeaves
  let a := h.afterData
  let m := a.select
  have hu : unchangedBut [.port, .dram] s.dev u := written_frame _ _
  have hh : unchangedBut [.contexts, .queue] u h := headLeaves_frame u
  have huh : unchangedBut [.contexts, .queue, .port, .dram] s.dev h := hu.comp hh (by decide) (by decide)
  have ha : unchangedBut [.engine, .journal, .mgmt, .port] h a := afterData_frame h
  have hengine : h.engine = s.dev.engine := huh .engine (by decide)
  have hrollback : a.rollback = s.dev.rollback := Eq.trans (ha .rollback (by decide)) (huh .rollback (by decide))
  have hm : unchangedBut [.rollback, .port] a m := select_frame a
  have hqueue : h.queue = rest := by
    rw [headLeaves_queue, show u.queue = e :: rest from hq]
    rfl
  have hctx : ∀ c, m.ctx c = h.ctx c := fun c => by
    rw [Device.ctx_congr (hm .contexts (by decide)), Device.ctx_congr (ha .contexts (by decide))]
  have hpart : h.part = s.dev.part := huh .part (by decide)
  have hjournal : h.journal = s.dev.journal := huh .journal (by decide)
  have hmgmt : h.mgmt = s.dev.mgmt := huh .mgmt (by decide)
  have hmj : m.journal = a.journal := hm .journal (by decide)
  have hdram : m.dram = s.dev.dram.writeLine w := by
    rw [hm .dram (by decide), ha .dram (by decide), hh .dram (by decide)]
    rfl
  have hlow : ∀ k : Journal, h.lowCauses h.journal k h.mgmt.causes = s.dev.lowCauses s.dev.journal k s.dev.mgmt.causes :=
    fun k => by
      rw [hjournal, hmgmt]
      exact lowCauses_congr _ hpart (by rw [hmgmt]) rfl ⟨rfl, rfl, rfl⟩ ⟨rfl, rfl, rfl⟩
  have member : ∀ g, s.dev.engine = .groupData g → 1 < g.remaining →
      m.engine = .groupData { g with remaining := g.remaining - 1 } ∧ m.journal = s.dev.journal ∧ m.mgmt = s.dev.mgmt
      ∧ ∀ e1 more w1, rest = e1 :: more → e1.write? = some w1 → .write .data w1 ∈ m.port.asked := fun g hg hr => by
    let v : Device := { h with engine := .groupData { g with remaining := g.remaining - 1 } }
    have hav : a = v.requestData := afterData_member (hengine.trans hg) hr
    have hv : unchangedBut [.port] v v.requestData := requestData_frame v
    refine ⟨?_, ?_, ?_, fun e1 more w1 hrest hw1 => ?_⟩
    · rw [hm .engine (by decide), hav, hv .engine (by decide)]
    · rw [hmj, hav, hv .journal (by decide), ← hjournal]
    · rw [hm .mgmt (by decide), hav, hv .mgmt (by decide), ← hmgmt]
    · refine (select_grows a).asked ?_
      rw [hav]
      exact requestData_asked (d := v) (hqueue.trans hrest) hw1
  have next : (∀ g, s.dev.engine = .groupData g → g.remaining ≤ 1) →
      let found : Device := { s.dev with contexts := m.contexts }
      m.journal = found.takenUp rest ∧ engineTook rest found m ∧ m.mgmt = s.dev.mgmt.withCauses
        (s.dev.lowCauses s.dev.journal (found.takenUp rest) s.dev.mgmt.causes) := fun hg => by
    intro found
    have hah : a = h.engineNext := afterData_next fun g k => hg g (hengine.symm.trans k)
    have hnewest : ∀ c, (found.ctx c).newest = (h.ctx c).newest := fun c => by rw [← hctx]; rfl
    have htaken : found.takenUp rest = h.takenUp rest := takenUp_congr hnewest hpart.symm hjournal.symm _
    have htook : engineTook rest h a := by
      have k := engineNext_took h
      rwa [hqueue, ← hah] at k
    refine ⟨?_, (engineTook_congr htook hnewest hpart.symm hjournal.symm).mono (hm .engine (by decide)) (select_grows a), ?_⟩
    · rw [hmj, hah, engineNext_journal, hqueue, htaken]
    · rw [hm .mgmt (by decide), hah, engineNext_mgmt, hqueue, htaken, hlow, hmgmt]
  refine ⟨m, exec_dataWriteComplete hfly hq, ?_, hdram, writeLine_sameOutside hdram, ?_, fun c => ?_,
    fun g hg hr => ?_, fun hg => ?_, ?_, ?_, ?_⟩
  · exact ((huh.comp ha (by decide) (by decide) :
      unchangedBut [.contexts, .queue, .engine, .journal, .mgmt, .port, .dram] s.dev a)).comp hm (by decide) (by decide)
  · rw [hm .queue (by decide), ha .queue (by decide), hqueue]
  · rw [hctx, headLeaves_ctx (d := u) hq]
    rfl
  · obtain ⟨heng, hj, _, hask⟩ := member g hg hr
    exact ⟨heng, hj, hask⟩
  · obtain ⟨hj, htook, _⟩ := next hg
    exact ⟨hj, htook⟩
  · by_cases hg : ∃ g, s.dev.engine = .groupData g ∧ 1 < g.remaining
    · obtain ⟨g, hg, hr⟩ := hg
      obtain ⟨_, hj, hmm, _⟩ := member g hg hr
      rw [hj, hmm]
      exact (congrArg s.dev.mgmt.withCauses (lowCauses_of_same _ rfl rfl rfl)).symm
    · obtain ⟨hj, _, hmm⟩ := next fun g k => not_lt.mp fun hr => hg ⟨g, k, hr⟩
      rw [hj]
      exact hmm
  · have hchosen := select_walkChosen a
    rw [hrollback] at hchosen
    refine hchosen.of_part ?_
    rw [ha .part (by decide), hpart]
  · by_cases hg : ∃ g, s.dev.engine = .groupData g ∧ 1 < g.remaining
    · obtain ⟨g, hg, hr⟩ := hg
      obtain ⟨_, hj, _, _⟩ := member g hg hr
      rw [hj]
      exact ⟨rfl, rfl⟩
    · obtain ⟨hj, _, _⟩ := next fun g k => not_lt.mp fun hr => hg ⟨g, k, hr⟩
      rw [hj]
      obtain ⟨hr, hn, _⟩ := takenUp_counts { s.dev with contexts := m.contexts } rest
      exact ⟨hr, hn⟩

end Sys2Proof.Machine
end

section
/-! What the last write of a record makes of the journal controller, and the locators that a BEFORE record sets (R74, R94,
R107, R110). -/

namespace Sys2Proof.Machine

/-! ### The record has landed -/

theorem settles_eq (r : RecordReq) : r.settles = match r.kind with
    | .openRec | .commit | .done => 6
    | .before => 14 * r.members
    | .pad => 0 := by
  unfold RecordReq.settles
  cases r.kind <;> rfl

/-- The journal controller when the record of `a` has landed (R110). -/
def Journal.afterRecord (j : Journal) (ring : Nat) (a : Append) : Journal :=
  { j with
    append := none
    nextSeq := j.nextSeq + 1
    head := if ring ≤ a.pos + (6 + a.req.images.length) then 0 else a.pos + (6 + a.req.images.length)
    reserved := j.reserved - (match a.req.kind with
      | .openRec | .commit | .done => 6
      | .before => 14 * a.req.members
      | .pad => 0)
    tailRec := if a.pos = j.liveTail then some { kind := a.req.kind, ctx := some a.req.ctx, inst := a.req.inst, seq := a.seq }
      else j.tailRec }

/-- The block behind the landing, before free space is noted (R110). -/
def Device.advanced (d : Device) (a : Append) : Device :=
  { d with journal := { d.journal with
      head := ringAdvance d.ring a.pos a.req.length
      nextSeq := d.journal.nextSeq + 1
      tailRec := if a.pos = d.journal.liveTail then
          some { kind := a.req.kind, ctx := some a.req.ctx, inst := a.req.inst, seq := a.seq : TailId }
        else d.journal.tailRec
      reserved := d.journal.reserved - a.req.settles
      append := none } }

theorem recordLanded_eq (d : Device) (a : Append) : d.recordLanded a = (d.advanced a).noteFree d.free := rfl

theorem recordLanded_journal (d : Device) (a : Append) :
    (d.recordLanded a).journal = d.journal.afterRecord d.ring a := by
  rw [recordLanded_eq, noteFree_journal]
  unfold Device.advanced Journal.afterRecord
  rw [settles_eq]
  rfl

theorem recordLanded_mgmt (d : Device) (a : Append) : (d.recordLanded a).mgmt = d.mgmt.withCauses
    (d.lowCauses d.journal (d.recordLanded a).journal d.mgmt.causes) := by
  have hj : (d.recordLanded a).journal = (d.advanced a).journal := noteFree_journal _ _
  rw [hj]
  exact noteFree_mgmt rfl

/-! ### The append that waited begins -/

theorem beginWaitingAppend_none {d : Device} (h : d.journal.appendWaiting = none) : d.beginWaitingAppend = d := by
  unfold Device.beginWaitingAppend
  rw [h]

theorem beginWaitingAppend_some {d : Device} {who : Appender} {req : RecordReq}
    (h : d.journal.appendWaiting = some (who, req)) : d.beginWaitingAppend
      = Device.beginAppend { d with journal := { d.journal with appendWaiting := none } } who req := by
  unfold Device.beginWaitingAppend
  rw [h]

/-- The journal controller when a record has landed and the append that waited has begun (R107). -/
def Device.waitingBegun (d : Device) (j : Journal) : Journal :=
  match j.appendWaiting with
  | none => j
  | some (who, req) => Device.placedJournal { d with journal := { j with appendWaiting := none } } who req

theorem waitingBegun_of_none {d : Device} {j : Journal} (h : j.appendWaiting = none) : d.waitingBegun j = j := by
  unfold Device.waitingBegun
  rw [h]

theorem waitingBegun_of_some {d : Device} {j : Journal} {who : Appender} {req : RecordReq}
    (h : j.appendWaiting = some (who, req)) :
    d.waitingBegun j = Device.placedJournal { d with journal := { j with appendWaiting := none } } who req := by
  unfold Device.waitingBegun
  rw [h]

theorem beginWaitingAppend_journal (d : Device) : d.beginWaitingAppend.journal = d.waitingBegun d.journal := by
  cases h : d.journal.appendWaiting with
  | none => rw [beginWaitingAppend_none h, waitingBegun_of_none h]
  | some p =>
    rw [beginWaitingAppend_some h, waitingBegun_of_some h]
    exact beginAppend_journal _ _ _

theorem waitingBegun_congr {d e : Device} (hc : e.contexts = d.contexts) (hp : e.part = d.part) (j : Journal) :
    e.waitingBegun j = d.waitingBegun j := by
  unfold Device.waitingBegun
  split
  · rfl
  · exact placedJournal_congr (d := { d with journal := { j with appendWaiting := none } })
      (e := { e with journal := { j with appendWaiting := none } }) (sameLink_of_contexts hc _) hp rfl _

theorem beginWaitingAppend_mgmt (d : Device) : d.beginWaitingAppend.mgmt = d.mgmt.withCauses
    (d.lowCauses d.journal (d.waitingBegun d.journal) d.mgmt.causes) := by
  cases h : d.journal.appendWaiting with
  | none =>
    rw [beginWaitingAppend_none h, waitingBegun_of_none h]
    exact (congrArg d.mgmt.withCauses (lowCauses_of_same _ rfl rfl rfl)).symm
  | some p =>
    rw [beginWaitingAppend_some h, waitingBegun_of_some h, beginAppend_mgmt]
    exact congrArg d.mgmt.withCauses (lowCauses_congr _ rfl rfl rfl ⟨rfl, rfl, rfl⟩ ⟨rfl, rfl, rfl⟩)

theorem beginWaitingAppend_firstAsked {d : Device} {who : Appender} {req : RecordReq}
    (h : d.journal.appendWaiting = some (who, req)) :
    firstAsked (Device.placedAppend { d with journal := { d.journal with appendWaiting := none } } who req)
      d.beginWaitingAppend := by
  rw [beginWaitingAppend_some h]
  exact beginAppend_firstAsked _ _ _

/-- An append that begins keeps the journal controller's counts, its pass and its anchor write (R107). -/
theorem waitingBegun_counts (d : Device) (j : Journal) :
    (d.waitingBegun j).reserved = j.reserved ∧ (d.waitingBegun j).nextSeq = j.nextSeq
      ∧ (d.waitingBegun j).cond = j.cond ∧ (d.waitingBegun j).anchoredTail = j.anchoredTail
      ∧ (d.waitingBegun j).anchor = j.anchor ∧ (d.waitingBegun j).pass = j.pass := by
  unfold Device.waitingBegun
  split
  · exact ⟨rfl, rfl, rfl, rfl, rfl, rfl⟩
  · unfold Device.placedJournal
    dsimp only
    split <;> exact ⟨rfl, rfl, rfl, rfl, rfl, rfl⟩

/-! ### Locators -/

/-- The position that a word's image gets: behind those of the words below it (R94). -/
theorem foldl_located_getElem (p : Nat) (l : List (Fin 8)) (n : Nat) (v : Vector (Option Locator) 8)
    (hl : l.Pairwise (· < ·)) (i : Fin 8) :
    ((l.zipIdx n).foldl (fun v x => v.set x.1.val (some (Locator.position (p + x.2))) x.1.isLt) v)[i]
      = if i ∈ l then some (Locator.position (p + (n + (l.filter fun k => decide (k < i)).length))) else v[i] := by
  induction l generalizing n v with
  | nil => simp
  | cons j l ih =>
    obtain ⟨hj, hl⟩ := List.pairwise_cons.mp hl
    rw [List.zipIdx_cons, List.foldl_cons, ih (n + 1) _ hl]
    by_cases hi : i ∈ l
    · have hlt : j < i := hj i hi
      simp [hi, hlt, Nat.add_assoc, Nat.add_comm 1]
    · by_cases hij : i = j
      · subst hij
        have hnone : l.filter (fun k => decide (k < i)) = [] :=
          List.filter_eq_nil_iff.mpr fun k hk => by simpa using (hj k hk).le
        simp [hi, hnone]
      · have hval : j.val ≠ i.val := fun k => hij (Fin.ext k.symm)
        simp [hi, hij, Fin.getElem_fin, Vector.getElem_set_ne _ _ hval]

theorem setWords_sorted (m : WordSet) : (setWords m).Pairwise (· < ·) :=
  (List.pairwise_lt_finRange 8).filter _

theorem located_words (e : OwnEntry) (mask : WordSet) (p : Nat) (i : Fin 8) : (e.located mask p).words[i] =
    if mask.getLsbD i.val = true
      then some (.position (p + 6 + ((setWords mask).filter fun k => decide (k < i)).length)) else e.words[i] := by
  have h := foldl_located_getElem (p + 6) (setWords mask) 0 e.words (setWords_sorted mask) i
  simp only [mem_setWords, Nat.zero_add] at h
  exact h

end Sys2Proof.Machine
end

section
/-! What each appender's rule makes of the block in which its record has landed (R88, R94, R95, R130, R142). -/

namespace Sys2Proof.Machine

/-! ### The engine takes up the next entry -/

/-- What the engine takes up, by any block that stands as the one it found, in what an append looks at. -/
theorem engineNext_found {h f : Device} {rest : List QEntry} (hq : h.queue = rest)
    (hn : ∀ c, (f.ctx c).newest = (h.ctx c).newest) (hp : f.part = h.part) (hj : f.journal = h.journal) :
    h.engineNext.journal = f.takenUp rest ∧ engineTook rest f h.engineNext
      ∧ h.engineNext.mgmt = h.mgmt.withCauses (h.lowCauses h.journal (f.takenUp rest) h.mgmt.causes) := by
  have htaken : f.takenUp rest = h.takenUp rest := takenUp_congr hn hp hj rest
  subst hq
  refine ⟨(engineNext_journal h).trans htaken.symm, engineTook_congr (engineNext_took h) hn hp hj, ?_⟩
  rw [htaken]
  exact engineNext_mgmt h

/-! ### Contexts -/

theorem setNewest_ctx (d : Device) (c : Ctx) (p : Nat) : (d.setNewest c p).ctx c = { d.ctx c with newest := some p } :=
  Device.ctx_modifyCtx d c _

theorem setNewest_otherContexts (d : Device) (c : Ctx) (p : Nat) : otherContexts c d (d.setNewest c p) :=
  fun x hx => Device.ctx_modifyCtx_ne d c x _ hx

theorem finish_ctx (d : Device) (c : Ctx) (o : FinishOutcome) : (d.finish c o).ctx c = { d.ctx c with
    state := .free, outcome := o, owned := 0, newest := none, lease := (d.ctx c).lease.stop } :=
  Device.ctx_modifyCtx { d with own := d.released c } c _

theorem finish_otherContexts (d : Device) (c : Ctx) (o : FinishOutcome) : otherContexts c d (d.finish c o) :=
  fun x hx => Device.ctx_modifyCtx_ne { d with own := d.released c } c x _ hx

theorem otherContexts.trans {c : Ctx} {d e f : Device} (h : otherContexts c d e) (k : otherContexts c e f) :
    otherContexts c d f := fun x hx => (k x hx).trans (h x hx)

theorem otherContexts.of_contexts {c : Ctx} {d e : Device} (h : e.contexts = d.contexts) : otherContexts c d e :=
  fun x _ => Device.ctx_congr h x

theorem headLeaves_ctx_same {d : Device} {e : QEntry} {rest : List QEntry} {c : Ctx} (h : d.queue = e :: rest)
    (he : e.ctx? = some c) : d.headLeaves.ctx c = { d.ctx c with queued := (d.ctx c).queued - 1 } := by
  rw [headLeaves_ctx h, if_pos he]

theorem headLeaves_otherContexts {d : Device} {e : QEntry} {rest : List QEntry} {c : Ctx} (h : d.queue = e :: rest)
    (he : e.ctx? = some c) : otherContexts c d d.headLeaves := fun x hx => by
  rw [headLeaves_ctx h, if_neg (by rw [he]; exact fun k => hx (Option.some.inj k).symm)]

/-! ### OPEN -/

section
variable {d : Device} {a : Append} {i : Word} {rest : List QEntry}

/-- The block behind an OPEN record, before the engine takes up the next entry (R88). -/
def Device.openLanded (d : Device) (a : Append) : Device := (d.setNewest a.req.ctx a.pos).headLeaves

theorem openComplete_eq : d.openComplete a = (d.openLanded a).engineNext := rfl

theorem openLanded_frame : unchangedBut [.contexts, .queue] d (d.openLanded a) :=
  (setNewest_frame d _ _).comp (headLeaves_frame _) (by decide) (by decide)

theorem openLanded_queue (hq : d.queue = .openEntry a.req.ctx i :: rest) : (d.openLanded a).queue = rest := by
  unfold Device.openLanded
  rw [headLeaves_queue, setNewest_frame _ _ _ .queue (by decide), hq]
  rfl

theorem openLanded_ctx (hq : d.queue = .openEntry a.req.ctx i :: rest) : (d.openLanded a).ctx a.req.ctx =
    { d.ctx a.req.ctx with newest := some a.pos, queued := (d.ctx a.req.ctx).queued - 1 } := by
  have hq' : (d.setNewest a.req.ctx a.pos).queue = .openEntry a.req.ctx i :: rest := hq
  unfold Device.openLanded
  rw [headLeaves_ctx_same (c := a.req.ctx) hq' rfl, setNewest_ctx]

theorem openLanded_otherContexts (hq : d.queue = .openEntry a.req.ctx i :: rest) :
    otherContexts a.req.ctx d (d.openLanded a) :=
  (setNewest_otherContexts d _ _).trans (headLeaves_otherContexts (d := d.setNewest a.req.ctx a.pos) hq rfl)

/-! ### BEFORE -/

/-- The block behind a BEFORE record of the group `g`, before its first data write is requested (R94, R95). -/
def Device.groupLanded (d : Device) (g : Group) (p : Nat) : Device :=
  { (d.setLocators g p).setNewest g.ctx p with engine := .groupData { g with remaining := g.members } }

theorem beforeComplete_eq {g : Group} (h : d.engine = .beforeRecord g) :
    d.beforeComplete a = (d.groupLanded g a.pos).requestData := by
  unfold Device.beforeComplete
  rw [h]
  rfl

theorem groupLanded_frame (d : Device) (g : Group) (p : Nat) :
    unchangedBut [.own, .contexts, .engine] d (d.groupLanded g p) :=
  ((setLocators_frame d g p).comp (setNewest_frame _ _ _) (by decide) (by decide) :
    unchangedBut [.own, .contexts] d _).comp (engine_frame _ _) (by decide) (by decide)

theorem groupLanded_ctx (d : Device) (g : Group) (p : Nat) :
    (d.groupLanded g p).ctx g.ctx = { d.ctx g.ctx with newest := some p } := setNewest_ctx (d.setLocators g p) _ _

theorem groupLanded_otherContexts (d : Device) (g : Group) (p : Nat) : otherContexts g.ctx d (d.groupLanded g p) :=
  setNewest_otherContexts (d.setLocators g p) _ _

theorem groupLanded_own (d : Device) (g : Group) (p : Nat) : (d.groupLanded g p).own
    = d.own.map fun e => if e.line = g.line ∧ e.inst = g.inst then e.located g.union p else e := rfl

/-! ### COMMIT -/

/-- The context without a commit waiter (R130). -/
def Device.unwaited (d : Device) (c : Ctx) : Device := d.modifyCtx c fun x => { x with commitWaiter := false }

theorem unwaited_ctx (d : Device) (c : Ctx) : (d.unwaited c).ctx c = { d.ctx c with commitWaiter := false } :=
  Device.ctx_modifyCtx d c _

theorem answerCommitted_waiting {d : Device} {c : Ctx} (h : (d.ctx c).commitWaiter = true) :
    d.answerCommitted c = (d.unwaited c).reply c .committed := if_pos h

theorem answerCommitted_not {d : Device} {c : Ctx} (h : (d.ctx c).commitWaiter = false) : d.answerCommitted c = d :=
  if_neg (by simp [h])

theorem answerCommitted_frame (d : Device) (c : Ctx) : unchangedBut [.contexts, .host] d (d.answerCommitted c) := by
  unfold Device.answerCommitted
  split
  · exact (modifyCtx_frame d c _).comp (answer_frame _ _ _) (by decide) (by decide)
  · exact .refl _ d

theorem answerCommitted_ctx (d : Device) (c : Ctx) :
    (d.answerCommitted c).ctx c = { d.ctx c with commitWaiter := false } := by
  cases h : (d.ctx c).commitWaiter with
  | true =>
    rw [answerCommitted_waiting h]
    exact unwaited_ctx d c
  | false => rw [answerCommitted_not h, ← h]

theorem answerCommitted_otherContexts (d : Device) (c : Ctx) : otherContexts c d (d.answerCommitted c) := fun x hx => by
  cases h : (d.ctx c).commitWaiter with
  | true =>
    have hother : (d.unwaited c).ctx x = d.ctx x := Device.ctx_modifyCtx_ne d c x _ hx
    rw [answerCommitted_waiting h]
    exact hother
  | false => rw [answerCommitted_not h]

/-- The block behind a COMMIT record, before the engine takes up the next entry (R130). -/
def Device.commitLanded (d : Device) (a : Append) : Device :=
  ((d.finish a.req.ctx .committed).answerCommitted a.req.ctx).headLeaves

theorem commitComplete_eq : d.commitComplete a = (d.commitLanded a).engineNext.requestPass := rfl

theorem commitAnswered_frame (d : Device) (a : Append) : unchangedBut [.contexts, .own, .host] d
    ((d.finish a.req.ctx .committed).answerCommitted a.req.ctx) :=
  (finish_frame d _ _).comp (answerCommitted_frame _ _) (by decide) (by decide)

theorem commitLanded_frame : unchangedBut [.contexts, .own, .host, .queue] d (d.commitLanded a) :=
  (commitAnswered_frame d a).comp (headLeaves_frame _) (by decide) (by decide)

theorem commitLanded_queue (hq : d.queue = .commitEntry a.req.ctx i :: rest) : (d.commitLanded a).queue = rest := by
  unfold Device.commitLanded
  rw [headLeaves_queue, commitAnswered_frame d a .queue (by decide), hq]
  rfl

theorem commitLanded_own : (d.commitLanded a).own = d.released a.req.ctx := by
  unfold Device.commitLanded
  rw [headLeaves_frame _ .own (by decide), answerCommitted_frame _ _ .own (by decide)]
  exact finish_own d _ _

theorem commitLanded_ctx (hq : d.queue = .commitEntry a.req.ctx i :: rest) : (d.commitLanded a).ctx a.req.ctx =
    { d.ctx a.req.ctx with
      state := .free, outcome := .committed, owned := 0, newest := none, commitWaiter := false
      lease := { (d.ctx a.req.ctx).lease with running := false }, queued := (d.ctx a.req.ctx).queued - 1 } := by
  have hq' := Eq.trans (commitAnswered_frame d a .queue (by decide)) hq
  unfold Device.commitLanded
  rw [headLeaves_ctx_same (c := a.req.ctx) hq' rfl, answerCommitted_ctx, finish_ctx]
  rfl

theorem commitLanded_otherContexts (hq : d.queue = .commitEntry a.req.ctx i :: rest) :
    otherContexts a.req.ctx d (d.commitLanded a) :=
  ((finish_otherContexts d _ _).trans (answerCommitted_otherContexts _ _)).trans
    (headLeaves_otherContexts (Eq.trans (commitAnswered_frame d a .queue (by decide)) hq) rfl)

theorem commitLanded_host_not (h : (d.ctx a.req.ctx).commitWaiter = false) : (d.commitLanded a).host = d.host := by
  have hw : ((d.finish a.req.ctx .committed).ctx a.req.ctx).commitWaiter = false := by rw [finish_ctx]; exact h
  unfold Device.commitLanded
  rw [headLeaves_frame _ .host (by decide), answerCommitted_not hw, finish_frame d _ _ .host (by decide)]

/-- A COMMIT that waits is answered COMMITTED, with the context as its finish leaves it (R34, R130). -/
theorem commitLanded_host_waiting (h : (d.ctx a.req.ctx).commitWaiter = true) :
    ∃ x : ContextEntry, x.state = .free ∧ x.outcome = .committed ∧ x.inst = (d.ctx a.req.ctx).inst
      ∧ x.leaseExpired = (d.ctx a.req.ctx).leaseExpired
      ∧ (d.commitLanded a).host = { d.host with
          mode := .idle, answer := some { code := .okay, data := [replyWord .committed x] } } := by
  let f := d.finish a.req.ctx .committed
  have hctx : f.ctx a.req.ctx = _ := finish_ctx d a.req.ctx .committed
  have hw : (f.ctx a.req.ctx).commitWaiter = true := by rw [hctx]; exact h
  refine ⟨(f.unwaited a.req.ctx).ctx a.req.ctx, ?_, ?_, ?_, ?_, ?_⟩
  iterate 4 rw [unwaited_ctx, hctx]
  unfold Device.commitLanded
  rw [headLeaves_frame _ .host (by decide), answerCommitted_waiting hw]
  rfl

/-! ### DONE -/

/-- The block behind a DONE record, before the rollback engine selects (R142). -/
def Device.doneLanded (d : Device) (a : Append) : Device :=
  let f := d.finish a.req.ctx (outcomeOfCode a.req.byte1)
  { f with
    rollback := { list := d.rollback.list.filter fun e => decide (e.ctx ≠ a.req.ctx), state := .idle, walk := none }
    part := { d.part with report := d.part.report.countDone (outcomeOfCode a.req.byte1) } }

theorem doneComplete_eq : d.doneComplete a = (d.doneLanded a).select.requestPass := rfl

theorem doneLanded_frame : unchangedBut [.contexts, .own, .rollback, .part] d (d.doneLanded a) := by
  intro b hb
  cases b with
  | contexts | own | rollback | part => exact absurd (by decide) hb
  | _ => rfl

theorem doneLanded_ctx : (d.doneLanded a).ctx a.req.ctx = { d.ctx a.req.ctx with
    state := .free, outcome := outcomeOfCode a.req.byte1, owned := 0, newest := none
    lease := { (d.ctx a.req.ctx).lease with running := false } } := finish_ctx d _ _

theorem doneLanded_otherContexts : otherContexts a.req.ctx d (d.doneLanded a) := finish_otherContexts d _ _

theorem doneLanded_part : (d.doneLanded a).part = { d.part with report := { d.part.report with rolledBack :=
    if a.req.byte1 = 2 ∨ a.req.byte1 = 3 then d.part.report.rolledBack else d.part.report.rolledBack + 1 } } := by
  have hcount : d.part.report.countDone (outcomeOfCode a.req.byte1) = { d.part.report with rolledBack :=
      if a.req.byte1 = 2 ∨ a.req.byte1 = 3 then d.part.report.rolledBack else d.part.report.rolledBack + 1 } := by
    unfold Report.countDone outcomeOfCode
    by_cases h2 : a.req.byte1 = 2
    · rw [if_pos h2, if_neg (by decide), if_pos (Or.inl h2)]
    · by_cases h3 : a.req.byte1 = 3
      · rw [if_neg h2, if_pos h3, if_neg (by decide), if_pos (Or.inr h3)]
      · rw [if_neg h2, if_neg h3, if_pos rfl, if_neg fun k => k.elim h2 h3]
  exact congrArg (fun r => { d.part with report := r }) hcount

end

theorem eligible_congr {d e : Device} (h : e.contexts = d.contexts) (l : List ListEntry) :
    e.eligible l = d.eligible l := by
  induction l with
  | nil => rfl
  | cons x l ih =>
    unfold Device.eligible
    rw [Device.ctx_congr h, ih]

/-- A block whose rollback engine has selected has nothing more to select (R135). -/
theorem select_of_selected {x y : Device} (hr : x.rollback = y.select.rollback) (hc : x.contexts = y.contexts)
    (hp : x.part.state = y.part.state) : x.select = x := by
  by_cases hsel : y.rollback.state = .idle ∧ (y.part.state = .running ∨ y.part.state = .starting)
  · cases helig : y.eligible y.rollback.list with
    | none =>
      have hsame : x.rollback = y.rollback := hr.trans (by rw [select_of_none helig])
      refine select_of_none ?_
      rw [hsame, eligible_congr hc]
      exact helig
    | some p =>
      have hread : y.select.rollback.state = .read := by
        unfold Device.select
        rw [if_pos hsel, helig]
        rfl
      exact select_of_not_idle fun k => by rw [hr, hread] at k; exact absurd k.1 (by decide)
  · have hsame : x.rollback = y.rollback := hr.trans (by rw [select_of_not_idle hsel])
    refine select_of_not_idle fun k => hsel ?_
    rwa [hsame, hp] at k

end Sys2Proof.Machine
end

section
/-! The last write of a record completes: the block before the waiting cycle and the region map see the step (R88, R95,
R107, R110, R115, R130, R135, R142). -/

namespace Sys2Proof.Machine

/-! ### A pass that is requested -/

theorem stoppedPass_counts (d : Device) (j : Journal) (start tail : Nat) (t : Option TailId) :
    (d.stoppedPass j start tail t).reserved = j.reserved ∧ (d.stoppedPass j start tail t).nextSeq = j.nextSeq
      ∧ (d.stoppedPass j start tail t).anchoredTail = j.anchoredTail := by
  unfold Device.stoppedPass
  extract_lets rises debt j1
  by_cases h : j.reclaim = .inPass
  · rw [if_pos h]
    split <;> exact ⟨rfl, rfl, rfl⟩
  · rw [if_neg h]
    split <;> exact ⟨rfl, rfl, rfl⟩

theorem passRequested_counts (d : Device) (j : Journal) :
    (d.passRequested j).reserved = j.reserved ∧ (d.passRequested j).nextSeq = j.nextSeq
      ∧ (d.passRequested j).anchoredTail = j.anchoredTail := by
  have begun : ∀ start x, (d.begunPass j start x).reserved = j.reserved ∧ (d.begunPass j start x).nextSeq = j.nextSeq
      ∧ (d.begunPass j start x).anchoredTail = j.anchoredTail := fun start x => by
    unfold Device.begunPass
    extract_lets reads
    split
    · exact stoppedPass_counts _ _ _ _ _
    · split
      · exact ⟨rfl, rfl, rfl⟩
      · split
        · exact stoppedPass_counts _ _ _ _ _
        · exact ⟨rfl, rfl, rfl⟩
  unfold Device.passRequested
  split
  · split
    · exact begun _ _
    · exact ⟨rfl, rfl, rfl⟩
  · exact ⟨rfl, rfl, rfl⟩

/-- A pass looks at the part's state, at the ring and at a setting (R115-R119). -/
theorem passRequested_congr {d e : Device} (hs : e.part.state = d.part.state) (hr : e.part.straps = d.part.straps)
    (hm : e.mgmt.settings = d.mgmt.settings) (j : Journal) : e.passRequested j = d.passRequested j := by
  unfold Device.passRequested Device.begunPass Device.stoppedPass Device.ring
  rw [hs, hr, hm]

/-! ### The rule by the record's kind -/

section
variable {d : Device} {a : Append}

theorem appenderRule_open (h : a.req.kind = .openRec) : d.appenderRule a = d.openComplete a := by
  simp only [Device.appenderRule, h]

theorem appenderRule_before (h : a.req.kind = .before) : d.appenderRule a = d.beforeComplete a := by
  simp only [Device.appenderRule, h]

theorem appenderRule_commit (h : a.req.kind = .commit) : d.appenderRule a = d.commitComplete a := by
  simp only [Device.appenderRule, h]

theorem appenderRule_done (h : a.req.kind = .done) : d.appenderRule a = d.doneComplete a := by
  simp only [Device.appenderRule, h]

end

/-! ### The block in which the record has landed -/

/-- The record has landed, and the append that waited has begun (R107, R110). -/
def State.begunAt (s : State) (w : LineWrite) (a : Append) : Device :=
  ((s.dev.written w).recordLanded a).beginWaitingAppend

section
variable (s : State) (w : LineWrite) (a : Append)

theorem begunAt_frame : unchangedBut [.journal, .mgmt, .port, .dram] s.dev (s.begunAt w a) :=
  ((written_frame s.dev w).comp (recordLanded_frame _ a) (by decide) (by decide) :
    unchangedBut [.journal, .mgmt, .port, .dram] s.dev _).comp (beginWaitingAppend_frame _) (by decide) (by decide)

theorem begunAt_dram : (s.begunAt w a).dram = s.dev.dram.writeLine w := by
  unfold State.begunAt
  rw [beginWaitingAppend_frame _ .dram (by decide), recordLanded_frame _ a .dram (by decide)]
  rfl

theorem recordLanded_written : ((s.dev.written w).recordLanded a).journal = (s.dev.recordLanded a).journal := by
  rw [recordLanded_journal, recordLanded_journal]
  rfl

theorem begunAt_journal : (s.begunAt w a).journal = s.dev.waitingBegun (s.dev.recordLanded a).journal := by
  have hf : unchangedBut [.journal, .mgmt, .port, .dram] s.dev ((s.dev.written w).recordLanded a) :=
    (written_frame s.dev w).comp (recordLanded_frame _ a) (by decide) (by decide)
  unfold State.begunAt
  rw [beginWaitingAppend_journal, waitingBegun_congr (hf .contexts (by decide)) (hf .part (by decide)),
    recordLanded_written]

theorem begunAt_mgmt : (s.begunAt w a).mgmt = s.dev.mgmt.withCauses
    (s.dev.lowCauses (s.dev.recordLanded a).journal (s.dev.waitingBegun (s.dev.recordLanded a).journal)
      (s.dev.lowCauses s.dev.journal (s.dev.recordLanded a).journal s.dev.mgmt.causes)) := by
  let u := s.dev.written w
  have hu : unchangedBut [.port, .dram] s.dev u := written_frame s.dev w
  have hl : unchangedBut [.journal, .mgmt] u (u.recordLanded a) := recordLanded_frame u a
  have hmgmt : (u.recordLanded a).mgmt = s.dev.mgmt.withCauses
      (s.dev.lowCauses s.dev.journal (s.dev.recordLanded a).journal s.dev.mgmt.causes) := by
    rw [recordLanded_mgmt, recordLanded_written]
    exact congrArg s.dev.mgmt.withCauses (lowCauses_congr _ rfl rfl rfl ⟨rfl, rfl, rfl⟩ ⟨rfl, rfl, rfl⟩)
  unfold State.begunAt
  rw [beginWaitingAppend_mgmt, hmgmt, recordLanded_written,
    waitingBegun_congr (d := s.dev) (hl .contexts (by decide)) (hl .part (by decide)), Management.withCauses_withCauses]
  exact congrArg s.dev.mgmt.withCauses
    (lowCauses_congr _ (hl .part (by decide)) (by rw [hmgmt]; rfl) rfl ⟨rfl, rfl, rfl⟩ ⟨rfl, rfl, rfl⟩)

theorem begunAt_firstAsked {who : Appender} {req : RecordReq} (h : s.dev.journal.appendWaiting = some (who, req)) :
    firstAsked (Device.placedAppend
      { s.dev with journal := { (s.dev.recordLanded a).journal with appendWaiting := none } } who req) (s.begunAt w a) := by
  have hl : unchangedBut [.journal, .mgmt] (s.dev.written w) ((s.dev.written w).recordLanded a) := recordLanded_frame _ a
  have hw : ((s.dev.written w).recordLanded a).journal.appendWaiting = some (who, req) := by
    rw [recordLanded_journal]
    exact h
  have hfirst := beginWaitingAppend_firstAsked hw
  rw [recordLanded_written] at hfirst
  rw [← placedAppend_congr (d := { s.dev with journal := { (s.dev.recordLanded a).journal with appendWaiting := none } })
    (e := { (s.dev.written w).recordLanded a with
      journal := { (s.dev.recordLanded a).journal with appendWaiting := none } })
    (sameLink_of_contexts (hl .contexts (by decide)) req) (hl .part (by decide)) rfl]
  exact hfirst

/-- What a record's last write does, its own rule and the selection before the waiting cycle sees the step (R110). -/
theorem exec_recordComplete {s : State} {w : LineWrite} {a : Append} {who : Appender} {x : LineWrite}
    (hfly : s.inFlight (.write (.append who) w) w.line) (ha : s.dev.journal.append = some a) (hw : a.writes = [x])
    (hp : a.padLen = none) : exec .appendWriteComplete s = .next (s.withDev
      ((((s.begunAt w a).appenderRule a).select).observe (endedByRecord a.req.kind a.req.inst
        (decide (s.dev.free < (s.dev.recordLanded a).free)))).settle) := by
  have hexec := exec_appendWriteComplete hfly ha
  have hfree : ((s.dev.written w).recordLanded a).free = (s.dev.recordLanded a).free := by
    have hj := recordLanded_written s w a
    refine free_congr ?_ (by rw [hj]) (by rw [hj]) (by rw [hj])
    rw [recordLanded_frame _ a .part (by decide), recordLanded_frame s.dev a .part (by decide)]
    rfl
  rw [appendWritten_record hw hp] at hexec
  unfold Device.recordComplete at hexec
  dsimp only at hexec
  rw [hfree] at hexec
  exact hexec

end

/-- Settles O40: the landing, the append that waited, the record's own rule, and the selection. -/
theorem recordWriteCompletes : Obligations.RecordWriteCompletes := by
  refine ⟨fun d a => ⟨recordLanded_frame d a, recordLanded_journal d a⟩,
    fun e mask p => ⟨rfl, rfl, rfl, located_words e mask p⟩, ?_⟩
  intro s a who w x hfly ha hw hp c landed s1 begun found taken low causes rose ends
  let B := s.begunAt w a
  have hB : unchangedBut [.journal, .mgmt, .port, .dram] s.dev B := begunAt_frame s w a
  have hbegun : begun = s.dev.waitingBegun landed := by
    have hwaiting : landed.appendWaiting = s.dev.journal.appendWaiting := by
      simp only [landed, recordLanded_journal, Journal.afterRecord]
    cases hq : s.dev.journal.appendWaiting with
    | none =>
      rw [waitingBegun_of_none (hwaiting.trans hq)]
      simp only [begun, hq]
    | some p =>
      rw [waitingBegun_of_some (hwaiting.trans hq)]
      simp only [begun, hq, s1]
  have hBj : B.journal = begun := (begunAt_journal s w a).trans hbegun.symm
  have hBm : B.mgmt = s.dev.mgmt.withCauses low := by
    have h := begunAt_mgmt s w a
    rwa [← hbegun] at h
  have hlow : ∀ (e : Device) (k : Journal), e.part = s.dev.part → e.mgmt = B.mgmt → e.journal = begun →
      e.mgmt.withCauses (e.lowCauses e.journal k e.mgmt.causes) = s.dev.mgmt.withCauses (s.dev.lowCauses begun k low) :=
    fun e k hep hem hej => by
      rw [hem, hej, hBm]
      refine congrArg s.dev.mgmt.withCauses (lowCauses_congr _ hep ?_ rfl ⟨rfl, rfl, rfl⟩ ⟨rfl, rfl, rfl⟩)
      rw [hem, hBm]
      rfl
  have hcounts : B.journal.reserved = landed.reserved ∧ B.journal.nextSeq = landed.nextSeq
      ∧ B.journal.anchoredTail = s.dev.journal.anchoredTail := by
    obtain ⟨hr, hn, _, ht, _, _⟩ := waitingBegun_counts s.dev landed
    rw [hBj, hbegun]
    refine ⟨hr, hn, ht.trans ?_⟩
    simp only [landed, recordLanded_journal, Journal.afterRecord]
  have complete : ∀ {kinds ks : List Block} {post : Device → Prop} {R : Device}, B.appenderRule a = R →
      unchangedBut ks B R → (∀ b ∈ .rollback :: ks, b ∈ kinds ++ [.contexts, .journal, .mgmt, .port, .dram]) →
      .dram ∉ ks → otherContexts c B R → PortGrows B R →
      R.journal.reserved = B.journal.reserved ∧ R.journal.nextSeq = B.journal.nextSeq
        ∧ R.journal.anchoredTail = B.journal.anchoredTail → post R.select → ends kinds post := by
    intro kinds ks post R hrule hR hks hdramks hothers hgrows hkept hpost
    have hm : unchangedBut [.rollback, .port] R R.select := select_frame R
    have hexec := exec_recordComplete hfly ha hw hp
    rw [show s.begunAt w a = B from rfl, hrule] at hexec
    have hdram : R.select.dram = s.dev.dram.writeLine w := by
      rw [hm .dram (by decide), hR .dram hdramks]
      exact begunAt_dram s w a
    have hj : R.select.journal = R.journal := hm .journal (by decide)
    refine ⟨R.select, hexec, hdram, writeLine_sameOutside hdram, ?_, ?_, ?_, fun who2 req2 hq => ?_, ?_, ?_, hpost⟩
    · rw [hj, hkept.2.1, hcounts.2.1]
    · rw [hj, hkept.1, hcounts.1]
    · rw [hj, hkept.2.2, hcounts.2.2]
    · exact (begunAt_firstAsked s w a hq).mono (hgrows.trans (select_grows R))
    · exact (otherContexts.of_contexts (hB .contexts (by decide))).trans
        (hothers.trans (.of_contexts (hm .contexts (by decide))))
    · refine ((hB.mono fun b hb => ?_).trans (hR.mono fun b hb => hks b (List.mem_cons_of_mem _ hb))).trans
        (hm.mono fun b hb => ?_)
      · refine List.mem_append_right _ ?_
        revert b
        decide
      · rcases List.mem_cons.mp hb with rfl | hb
        · exact hks _ List.mem_cons_self
        · refine List.mem_append_right _ ?_
          revert b
          decide
  have chosen : ∀ {R : Device}, R.rollback = s.dev.rollback → R.part.state = s.dev.part.state →
      walkChosen s.dev.rollback s.dev R.select := fun {R} hr hst => by
    have h := select_walkChosen R
    rw [hr] at h
    exact h.of_part hst.symm
  have takesUp : ∀ {H m : Device} {rest : List QEntry}, H.queue = rest → H.part = s.dev.part → H.journal = begun →
      H.mgmt = B.mgmt → m.contexts = H.contexts → H.engineNext.journal = taken m rest
        ∧ engineTook rest (found m) H.engineNext
        ∧ H.engineNext.mgmt = s.dev.mgmt.withCauses (s.dev.lowCauses begun (taken m rest) low) :=
    fun {H m rest} hqueue hpart hjournal hmgmt hcontexts => by
      obtain ⟨hj, htook, hm⟩ := engineNext_found (f := found m) hqueue
        (fun c => congrArg ContextEntry.newest (Device.ctx_congr (d := H) (e := found m) hcontexts c)) hpart.symm
        hjournal.symm
      exact ⟨hj, htook, hm.trans (hlow H _ hpart hmgmt hjournal)⟩
  refine ⟨fun hk i rest hq => ?_, fun hk g heng hg => ?_, fun hk i rest hq => ?_, fun hk => ?_⟩
  · let H := B.openLanded a
    let R := H.engineNext
    have hBq : B.queue = .openEntry a.req.ctx i :: rest := Eq.trans (hB .queue (by decide)) hq
    have hH : unchangedBut [.contexts, .queue] B H := openLanded_frame
    have hR : unchangedBut [.engine, .journal, .mgmt, .port] H R := engineNext_frame H
    have hm : unchangedBut [.rollback, .port] R R.select := select_frame R
    have hHq : H.queue = rest := openLanded_queue hBq
    have hcontexts : R.select.contexts = H.contexts := Eq.trans (hm .contexts (by decide)) (hR .contexts (by decide))
    have hpart : H.part = s.dev.part := Eq.trans (hH .part (by decide)) (hB .part (by decide))
    obtain ⟨hj, htook, hmgmt⟩ := takesUp (m := R.select) hHq hpart (Eq.trans (hH .journal (by decide)) hBj)
      (hH .mgmt (by decide)) hcontexts
    have hkept : R.journal.reserved = B.journal.reserved ∧ R.journal.nextSeq = B.journal.nextSeq
        ∧ R.journal.anchoredTail = B.journal.anchoredTail := by
      obtain ⟨hr, hn, _, ht, _⟩ := takenUp_counts (found R.select) rest
      rw [hj, hBj]
      exact ⟨hr, hn, ht⟩
    refine complete (R := R) (appenderRule_open hk) (hH.comp hR (by decide) (by decide) :
      unchangedBut [.contexts, .queue, .engine, .journal, .mgmt, .port] B R) (by decide) (by decide)
      ((openLanded_otherContexts hBq).trans (.of_contexts (hR .contexts (by decide))))
      ((engineNext_grows H).of_start (hH .port (by decide))) hkept ⟨?_, ?_, ?_, ?_, ?_, ?_⟩
    · rw [hm .queue (by decide), hR .queue (by decide), hHq]
    · rw [Device.ctx_congr hcontexts, openLanded_ctx hBq, Device.ctx_congr (hB .contexts (by decide))]
    · refine chosen ?_ ?_
      · rw [hR .rollback (by decide), hH .rollback (by decide), hB .rollback (by decide)]
      · rw [hR .part (by decide), hpart]
    · exact Eq.trans (hm .journal (by decide)) hj
    · exact htook.mono (hm .engine (by decide)) (select_grows R)
    · exact Eq.trans (hm .mgmt (by decide)) hmgmt
  · let H := B.groupLanded g a.pos
    let R := H.requestData
    have hBe : B.engine = .beforeRecord g := Eq.trans (hB .engine (by decide)) heng
    have hH : unchangedBut [.own, .contexts, .engine] B H := groupLanded_frame B g a.pos
    have hR : unchangedBut [.port] H R := requestData_frame H
    have hm : unchangedBut [.rollback, .port] R R.select := select_frame R
    have hjournal : R.journal = begun := Eq.trans (hR .journal (by decide)) (Eq.trans (hH .journal (by decide)) hBj)
    have hothers : otherContexts g.ctx B R :=
      (groupLanded_otherContexts B g a.pos).trans (.of_contexts (hR .contexts (by decide)))
    rw [hg] at hothers
    refine complete (R := R) ((appenderRule_before hk).trans (beforeComplete_eq hBe))
      (hH.comp hR (by decide) (by decide) : unchangedBut [.own, .contexts, .engine, .port] B R) (by decide) (by decide)
      hothers ((requestData_grows H).of_start (hH .port (by decide))) ?_ ⟨?_, fun e0 more w0 hq hw0 => ?_, ?_, ?_, ?_, ?_, ?_⟩
    · rw [hjournal, hBj]
      exact ⟨rfl, rfl, rfl⟩
    · rw [hm .engine (by decide), hR .engine (by decide)]
      rfl
    · have hHq : H.queue = e0 :: more := by
        rw [hH .queue (by decide), hB .queue (by decide)]
        exact hq
      exact (select_grows R).asked (requestData_asked (d := H) hHq hw0)
    · refine chosen ?_ ?_
      · rw [hR .rollback (by decide), hH .rollback (by decide), hB .rollback (by decide)]
      · rw [hR .part (by decide), hH .part (by decide), hB .part (by decide)]
    · exact Eq.trans (hm .journal (by decide)) hjournal
    · have hctx : H.ctx g.ctx = { B.ctx g.ctx with newest := some a.pos } := groupLanded_ctx B g a.pos
      rw [hg] at hctx
      rw [Device.ctx_congr (hm .contexts (by decide)), Device.ctx_congr (hR .contexts (by decide)), hctx,
        Device.ctx_congr (hB .contexts (by decide))]
    · exact Eq.trans (hm .mgmt (by decide)) (Eq.trans (hR .mgmt (by decide)) (Eq.trans (hH .mgmt (by decide)) hBm))
    · rw [hm .own (by decide), hR .own (by decide), groupLanded_own, hB .own (by decide)]
  · let H := B.commitLanded a
    let E := H.engineNext
    let R := E.requestPass
    have hBq : B.queue = .commitEntry a.req.ctx i :: rest := Eq.trans (hB .queue (by decide)) hq
    have hBctx : B.ctx a.req.ctx = s.dev.ctx a.req.ctx := Device.ctx_congr (hB .contexts (by decide)) _
    have hH : unchangedBut [.contexts, .own, .host, .queue] B H := commitLanded_frame
    have hE : unchangedBut [.engine, .journal, .mgmt, .port] H E := engineNext_frame H
    have hR : unchangedBut [.journal, .port] E R := requestPass_frame E
    have hm : unchangedBut [.rollback, .port] R R.select := select_frame R
    have hHq : H.queue = rest := commitLanded_queue hBq
    have hcontexts : R.select.contexts = H.contexts := Eq.trans (hm .contexts (by decide))
      (Eq.trans (hR .contexts (by decide)) (hE .contexts (by decide)))
    have hpart : H.part = s.dev.part := Eq.trans (hH .part (by decide)) (hB .part (by decide))
    have hEpart : E.part = s.dev.part := Eq.trans (hE .part (by decide)) hpart
    obtain ⟨hj, htook, hmgmt⟩ := takesUp (m := R.select) hHq hpart (Eq.trans (hH .journal (by decide)) hBj)
      (hH .mgmt (by decide)) hcontexts
    have hRj : R.journal = s.dev.passRequested (taken R.select rest) := by
      rw [← hj]
      refine (requestPass_journal E).trans (passRequested_congr (by rw [hEpart]) (by rw [hEpart]) ?_ _)
      rw [hmgmt]
      rfl
    have hkept : R.journal.reserved = B.journal.reserved ∧ R.journal.nextSeq = B.journal.nextSeq
        ∧ R.journal.anchoredTail = B.journal.anchoredTail := by
      obtain ⟨hr, hn, _, ht, _⟩ := takenUp_counts (found R.select) rest
      obtain ⟨hr', hn', ht'⟩ := passRequested_counts s.dev (taken R.select rest)
      rw [hRj, hBj]
      exact ⟨hr'.trans hr, hn'.trans hn, ht'.trans ht⟩
    have halike : AsksAlike R R.select := .of_grows (hm .journal (by decide)) (by rw [hm .part (by decide)]) (select_grows R)
    have hgrows : PortGrows B R :=
      ((engineNext_grows H).of_start (hH .port (by decide))).trans (requestPass_grows E)
    refine complete (R := R) (appenderRule_commit hk)
      ((hH.comp hE (by decide) (by decide) :
        unchangedBut [.contexts, .own, .host, .queue, .engine, .journal, .mgmt, .port] B E).comp hR (by decide) (by decide) :
        unchangedBut [.contexts, .own, .host, .queue, .engine, .journal, .mgmt, .port] B R) (by decide) (by decide)
      (((commitLanded_otherContexts hBq).trans (.of_contexts (hE .contexts (by decide)))).trans
        (.of_contexts (hR .contexts (by decide)))) hgrows hkept ⟨?_, ?_, ?_, ?_, ?_, ?_, ?_, ?_, ?_, fun hc => ?_, fun hc => ?_⟩
    · rw [hm .queue (by decide), hR .queue (by decide), hE .queue (by decide), hHq]
    · refine chosen ?_ ?_
      · rw [hR .rollback (by decide), hE .rollback (by decide), hH .rollback (by decide), hB .rollback (by decide)]
      · rw [hR .part (by decide), hEpart]
    · exact (htook.mono (hR .engine (by decide)) (requestPass_grows E)).mono (hm .engine (by decide)) (select_grows R)
    · exact Eq.trans (hm .mgmt (by decide)) (Eq.trans (hR .mgmt (by decide)) hmgmt)
    · exact Eq.trans (hm .journal (by decide)) hRj
    · exact headerAsked_of_requested fun hpass => (requestPass_requested (d := E) (hj ▸ hpass)).alike halike
    · exact anchorAsked_of_issued fun hanchor => (requestPass_issued (d := E) (hj ▸ hanchor)).alike halike
    · rw [hm .own (by decide), hR .own (by decide), hE .own (by decide), commitLanded_own]
      unfold Device.released
      rw [hBctx, hB .own (by decide)]
    · rw [Device.ctx_congr hcontexts, commitLanded_ctx hBq, hBctx]
    · rw [hm .host (by decide), hR .host (by decide), hE .host (by decide), commitLanded_host_not (by rw [hBctx]; exact hc),
        hB .host (by decide)]
    · obtain ⟨x, hx1, hx2, hx3, hx4, hhost⟩ := commitLanded_host_waiting (d := B) (a := a) (by rw [hBctx]; exact hc)
      refine ⟨x, hx1, hx2, by rw [hx3, hBctx], by rw [hx4, hBctx], ?_⟩
      rw [hm .host (by decide), hR .host (by decide), hE .host (by decide), hhost, hB .host (by decide)]
  · let H := B.doneLanded a
    let E := H.select
    let R := E.requestPass
    have hBctx : B.ctx a.req.ctx = s.dev.ctx a.req.ctx := Device.ctx_congr (hB .contexts (by decide)) _
    have hH : unchangedBut [.contexts, .own, .rollback, .part] B H := doneLanded_frame
    have hE : unchangedBut [.rollback, .port] H E := select_frame H
    have hR : unchangedBut [.journal, .port] E R := requestPass_frame E
    have hHpart : H.part = _ := doneLanded_part (d := B) (a := a)
    rw [hB .part (by decide)] at hHpart
    have hRpart : R.part = H.part := Eq.trans (hR .part (by decide)) (hE .part (by decide))
    have hRcontexts : R.contexts = H.contexts := Eq.trans (hR .contexts (by decide)) (hE .contexts (by decide))
    have hsel : R.select = R := select_of_selected (y := H) (hR .rollback (by decide)) hRcontexts (by rw [hRpart])
    have hEj : E.journal = begun := Eq.trans (hE .journal (by decide)) (Eq.trans (hH .journal (by decide)) hBj)
    have hEm : E.mgmt = s.dev.mgmt.withCauses low :=
      Eq.trans (hE .mgmt (by decide)) (Eq.trans (hH .mgmt (by decide)) hBm)
    have hEpart : E.part = H.part := hE .part (by decide)
    have hRj : R.journal = s.dev.passRequested begun := by
      rw [← hEj]
      refine (requestPass_journal E).trans (passRequested_congr ?_ ?_ ?_ _)
      · rw [hEpart, hHpart]
      · rw [hEpart, hHpart]
      · rw [hEm]
        rfl
    have hkept : R.journal.reserved = B.journal.reserved ∧ R.journal.nextSeq = B.journal.nextSeq
        ∧ R.journal.anchoredTail = B.journal.anchoredTail := by
      rw [hRj, hBj]
      exact passRequested_counts s.dev begun
    refine complete (R := R) (appenderRule_done hk)
      ((hH.comp hE (by decide) (by decide) : unchangedBut [.contexts, .own, .rollback, .part, .port] B E).comp hR
        (by decide) (by decide) : unchangedBut [.contexts, .own, .rollback, .part, .journal, .port] B R) (by decide)
      (by decide) (doneLanded_otherContexts.trans (.of_contexts hRcontexts))
      (((select_grows H).of_start (hH .port (by decide))).trans (requestPass_grows E)) hkept ?_
    rw [hsel]
    refine ⟨hRj, headerAsked_of_requested fun hpass => requestPass_requested (d := E) (hEj ▸ hpass),
      anchorAsked_of_issued fun hanchor => requestPass_issued (d := E) (hEj ▸ hanchor), ?_, ?_, ?_, ?_, ?_⟩
    · rw [hR .own (by decide), hE .own (by decide)]
      refine (finish_own B a.req.ctx (outcomeOfCode a.req.byte1)).trans ?_
      unfold Device.released
      rw [hBctx, hB .own (by decide)]
    · rw [Device.ctx_congr hRcontexts, doneLanded_ctx, hBctx]
      rfl
    · have hchosen := select_walkChosen H
      have hrollback : H.rollback = { list := s.dev.rollback.list.filter fun e => decide (e.ctx ≠ a.req.ctx),
                                      state := .idle, walk := none } := by
        rw [← hB .rollback (by decide)]
        rfl
      rw [hrollback] at hchosen
      have hstate : s.dev.part.state = H.part.state := by rw [hHpart]
      refine (hchosen.of_part hstate).mono (hR .rollback (by decide)) (fun c => ?_) (by rw [hR .part (by decide)])
        fun l hl => (requestPass_grows E).asked hl
      rw [Device.ctx_congr (hR .contexts (by decide))]
      exact ⟨rfl, rfl⟩
    · exact Eq.trans (hR .mgmt (by decide)) hEm
    · exact hRpart.trans hHpart

end Sys2Proof.Machine
end

section
/-! The rollback engine's reads and restoring writes (R138-R141, R146). -/

namespace Sys2Proof.Machine

/-! ### A record of the walk is read -/

theorem exec_rollbackRecordReadComplete {s : State} {w : Walk} {line : Nat}
    (h : s.inFlight (.read .walk line) line) (hr : s.dev.rollback.state = .read) (hw : s.dev.rollback.walk = some w) :
    exec .rollbackRecordReadComplete s = s.onDevice (s.dev.landed.walkRead
      { w with words := w.words ++ (s.dev.dram.readLine line).drop ((w.pos + w.words.length) % 8) }) := by
  have hr' : s.dev.landed.rollback.state = .read := hr
  have hw' : s.dev.landed.rollback.walk = some w := hw
  change execRollbackRecordReadComplete s = _
  unfold execRollbackRecordReadComplete
  rw [readDone_of_inFlight h, hr', hw']
  rfl

section
variable {d : Device} {w : Walk}

theorem kindOfCode_before {ws : List Word} (h : (ws.getD 0 0).extractLsb' 24 8 = 2) :
    kindOfCode (recKindByte ws) = some .before := (kindOfCode_iff _ .before).mpr h

theorem kindOfCode_open {ws : List Word} (h : (ws.getD 0 0).extractLsb' 24 8 = 1) :
    kindOfCode (recKindByte ws) = some .openRec := (kindOfCode_iff _ .openRec).mpr h

theorem walkRead_more (h : w.words.length < 6
      ∨ ((w.words.getD 0 0).extractLsb' 24 8 = 2 ∧ w.words.length < (w.words.getD 1 0).toNat)) :
    d.walkRead w = .next (Device.requestWalkLine { d with rollback := { d.rollback with walk := some w } } w.pos
      w.words.length).settle := by
  unfold Device.walkRead
  by_cases h6 : w.words.length < 6
  · exact if_pos h6
  · obtain ⟨hk, hlen⟩ := h.resolve_left h6
    refine (if_neg h6).trans ?_
    rw [kindOfCode_before hk]
    exact if_pos hlen

theorem walkRead_restore (h6 : 6 ≤ w.words.length) (hk : (w.words.getD 0 0).extractLsb' 24 8 = 2)
    (hlen : (w.words.getD 1 0).toNat ≤ w.words.length) :
    d.walkRead w = .next (Device.request { d with rollback := { d.rollback with
      state := .restore, walk := some { w with words := w.words.take (w.words.getD 1 0).toNat } } }
      (.write .restore (restoreWrite (w.words.take (w.words.getD 1 0).toNat)))).settle := by
  unfold Device.walkRead
  refine (if_neg (not_lt.mpr h6)).trans ?_
  rw [kindOfCode_before hk]
  exact if_neg (not_lt.mpr hlen)

theorem walkRead_ends (h6 : 6 ≤ w.words.length) (hk : (w.words.getD 0 0).extractLsb' 24 8 = 1) :
    d.walkRead w = .next (d.walkEnds w).settle := by
  unfold Device.walkRead
  refine (if_neg (not_lt.mpr h6)).trans ?_
  simp only [kindOfCode_open hk]

theorem walkEnds_halted (h : d.part.state = .holding) :
    d.walkEnds w = { d with rollback := { d.rollback with state := .halted, walk := some w } } := if_pos h

theorem walkEnds_close (h : d.part.state ≠ .holding) : d.walkEnds w = Device.requestAppend
    { d with rollback := { d.rollback with state := .close, walk := some w } } .rollbackEngine (doneRecordReq w) :=
  if_neg h

theorem walkRead_halted (h6 : 6 ≤ w.words.length) (hk : (w.words.getD 0 0).extractLsb' 24 8 = 1)
    (h : d.part.state = .holding) : d.walkRead w = .next (Device.settle
      { d with rollback := { d.rollback with state := .halted, walk := some w } }) := by
  rw [walkRead_ends h6 hk, walkEnds_halted h]

theorem walkRead_close (h6 : 6 ≤ w.words.length) (hk : (w.words.getD 0 0).extractLsb' 24 8 = 1)
    (h : d.part.state ≠ .holding) : d.walkRead w = .next (Device.requestAppend
      { d with rollback := { d.rollback with state := .close, walk := some w } } .rollbackEngine
      (doneRecordReq w)).settle := by
  rw [walkRead_ends h6 hk, walkEnds_close h]

theorem restored_halted (h : d.part.state = .holding) : d.restored w = { d with rollback := { d.rollback with
    state := .halted, walk := some { w with pos := (w.words.getD 5 0).toNat, words := [] } } } := if_pos h

theorem restored_read (h : d.part.state ≠ .holding) : d.restored w = Device.requestWalkLine
    { d with rollback := { d.rollback with
      state := .read, walk := some { w with pos := (w.words.getD 5 0).toNat, words := [] } } }
    (w.words.getD 5 0).toNat 0 := if_neg h

end

theorem exec_restoreWriteComplete {s : State} {w : Walk} {x : LineWrite} (h : s.inFlight (.write .restore x) x.line)
    (hr : s.dev.rollback.state = .restore) (hw : s.dev.rollback.walk = some w) :
    exec .restoreWriteComplete s = .next (s.withDev ((s.dev.written x).restored w).settle) := by
  have hr' : (Device.rollback { s.dev.landed with dram := s.dev.dram.writeLine x }).state = .restore := hr
  have hw' : (Device.rollback { s.dev.landed with dram := s.dev.dram.writeLine x }).walk = some w := hw
  change execRestoreWriteComplete s = _
  unfold execRestoreWriteComplete
  rw [writeDone_of_inFlight h rfl, hr', hw']
  rfl

/-- The end of a command of the rollback engine keeps every block but the write engine and the port. -/
theorem settle_frame_of_rollback {s : State} {e : Device} (hclosing : s.notClosing)
    (hp : e.part = s.dev.part) (hl : e.rollback.list = s.dev.rollback.list) : unchangedBut [.engine, .port] e e.settle :=
  settle_frame_of_notClosing (by rw [hp, hl]; exact hclosing)

/-- Settles O45: the walk reads on, restores, closes or halts. -/
theorem walkRestoresRecords : Obligations.WalkRestoresRecords := by
  refine ⟨fun s w line hfly hclosing hread hwalk => ?_, fun s w x hfly hclosing hrestore hwalk => ?_⟩
  · intro ws kind len done
    let u := s.dev.landed
    let w1 : Walk := { w with words := ws }
    have hu : unchangedBut [.port] s.dev u := landed_frame _
    have hexec : exec .rollbackRecordReadComplete s = s.onDevice (u.walkRead w1) :=
      exec_rollbackRecordReadComplete hfly hread hwalk
    have ends : ∀ {r : Rollback} {e : Device}, u.walkRead w1 = .next e.settle → unchangedBut [.rollback, .port] s.dev e →
        e.rollback = r → r.list = s.dev.rollback.list → exec .rollbackRecordReadComplete s = .next (s.withDev e.settle)
          ∧ unchangedBut [.rollback, .engine, .port] s.dev e.settle ∧ e.settle.rollback = r := by
      intro r e h he hr hl
      have hsettle := settle_frame_of_rollback hclosing (he .part (by decide)) (hr ▸ hl)
      refine ⟨by rw [hexec, h]; rfl, he.comp hsettle (by decide) (by decide), ?_⟩
      exact Eq.trans (hsettle .rollback (by decide)) hr
    refine ⟨fun h => ?_, fun h6 hk hlen => ?_, fun h6 hk hstate => ?_, fun h6 hk hstate => ?_⟩
    · let v : Device := { u with rollback := { u.rollback with walk := some w1 } }
      obtain ⟨he, hf, hr⟩ := ends (r := { s.dev.rollback with walk := some w1 }) (walkRead_more (d := u) (w := w1) h)
        ((hu.comp (rollback_frame u _) (by decide) (by decide) : unchangedBut [.rollback, .port] s.dev v).comp
          (requestWalkLine_frame v _ _) (by decide) (by decide)) rfl rfl
      exact ⟨_, he, hf, hr, mem_asked_settle (by simp) (asked_request v _)⟩
    · let v : Device := { u with rollback := { u.rollback with
        state := .restore, walk := some { w with words := ws.take len } } }
      obtain ⟨he, hf, hr⟩ := ends (r := { s.dev.rollback with
          state := .restore, walk := some { w with words := ws.take len } })
        (walkRead_restore (d := u) (w := w1) h6 hk hlen)
        ((hu.comp (rollback_frame u _) (by decide) (by decide) : unchangedBut [.rollback, .port] s.dev v).comp
          (request_frame v _) (by decide) (by decide)) rfl rfl
      exact ⟨_, he, hf, hr, mem_asked_settle (by simp) (asked_request v _)⟩
    · let v : Device := { u with rollback := { u.rollback with state := .close, walk := some w1 } }
      let e := v.requestAppend .rollbackEngine done
      have hv : unchangedBut [.rollback, .port] s.dev v := hu.comp (rollback_frame u _) (by decide) (by decide)
      have he : unchangedBut [.journal, .mgmt, .port] v e := requestAppend_frame v _ _
      have hve : unchangedBut [.rollback, .journal, .mgmt, .port] s.dev e := hv.comp he (by decide) (by decide)
      have hrollback : e.rollback = { s.dev.rollback with state := .close, walk := some w1 } := he .rollback (by decide)
      have hwalk1 : u.walkRead w1 = .next e.settle := walkRead_close (d := u) (w := w1) h6 hk hstate
      have hsettle : unchangedBut [.engine, .port] e e.settle :=
        settle_frame_of_rollback hclosing (hve .part (by decide)) (by rw [hrollback])
      have hlink : sameLink done s.dev v := sameLink_of_contexts rfl done
      have hjournal : e.settle.journal = s.dev.appendAsked .rollbackEngine done := Eq.trans (hsettle .journal (by decide))
        ((requestAppend_journal v _ done).trans (appendAsked_congr hlink rfl rfl _))
      refine ⟨e.settle, by rw [hexec, hwalk1]; rfl, hve.comp hsettle (by decide) (by decide),
        Eq.trans (hsettle .rollback (by decide)) hrollback, hjournal, ?_, fun ha => ?_⟩
      · rw [hjournal]
        exact Eq.trans (hsettle .mgmt (by decide)) (requestAppend_mgmt_congr hlink rfl rfl rfl _)
      · have hfirst := requestAppend_firstAsked (d := v) .rollbackEngine done ha
        rw [placedAppend_congr hlink rfl rfl] at hfirst
        exact hfirst.settle
    · obtain ⟨he, hf, hr⟩ := ends (r := { s.dev.rollback with state := .halted, walk := some w1 })
        (walkRead_halted (d := u) (w := w1) h6 hk hstate)
        (hu.comp (rollback_frame u _) (by decide) (by decide)) rfl rfl
      exact ⟨_, he, hf, hr⟩
  · intro pos
    let u := s.dev.written x
    have hu : unchangedBut [.port, .dram] s.dev u := written_frame _ _
    have hexec := exec_restoreWriteComplete hfly hrestore hwalk
    have ends : ∀ {r : Rollback} {e : Device}, u.restored w = e → unchangedBut [.rollback, .port] u e → e.rollback = r →
        r.list = s.dev.rollback.list → exec .restoreWriteComplete s = .next (s.withDev e.settle)
          ∧ unchangedBut [.rollback, .engine, .port, .dram] s.dev e.settle
          ∧ e.settle.dram = s.dev.dram.writeLine x ∧ sameOutside x.line s.dev e.settle ∧ e.settle.rollback = r := by
      intro r e h he hr hl
      have hpart : e.part = s.dev.part := he .part (by decide)
      have hsettle := settle_frame_of_rollback hclosing hpart (hr ▸ hl)
      have hdram : e.settle.dram = s.dev.dram.writeLine x :=
        Eq.trans (hsettle .dram (by decide)) (he .dram (by decide))
      rw [show (s.dev.written x).restored w = e from h] at hexec
      exact ⟨hexec, (hu.comp he (by decide) (by decide) : unchangedBut [.rollback, .port, .dram] s.dev e).comp hsettle
        (by decide) (by decide), hdram, writeLine_sameOutside hdram, Eq.trans (hsettle .rollback (by decide)) hr⟩
    let w1 : Walk := { w with pos := pos, words := [] }
    by_cases hstate : s.dev.part.state = .holding
    · obtain ⟨he, hf, hdram, hout, hr⟩ := ends (r := { s.dev.rollback with state := .halted, walk := some w1 })
        (restored_halted (d := u) hstate) ((rollback_frame u _).mono (by decide)) rfl rfl
      refine ⟨_, he, hf, hdram, hout, ?_, fun h => absurd hstate h⟩
      rw [hr, if_pos hstate]
    · let v : Device := { u with rollback := { u.rollback with state := .read, walk := some w1 } }
      obtain ⟨he, hf, hdram, hout, hr⟩ := ends (r := { s.dev.rollback with state := .read, walk := some w1 })
        (restored_read (d := u) hstate) ((rollback_frame u _).comp (requestWalkLine_frame v _ _) (by decide) (by decide))
        rfl rfl
      refine ⟨_, he, hf, hdram, hout, ?_, fun _ => mem_asked_settle (by simp) (asked_request v _)⟩
      rw [hr, if_neg hstate]

end Sys2Proof.Machine
end

section
/-! What a start and the entry to HOLDING make of the blocks (R13, R32, R34, R63, R127, R146, R168, R171). -/

namespace Sys2Proof.Machine

/-! ### A start begins -/

theorem startClear_quietNow (d : Device) (k : StartKind) (st : Straps) : quietNow (d.startClear k st) := by
  refine ⟨fun c => ?_, fun x hx => absurd hx List.not_mem_nil⟩
  simp [Device.ctx, Device.startClear, ContextEntry.cleared]

theorem startClear_ctx (d : Device) (k : StartKind) (st : Straps) (c : Ctx) :
    (d.startClear k st).ctx c = ContextEntry.cleared := by
  simp [Device.ctx, Device.startClear]

/-- At a RESTART a waiting APPLY is copied: the quiet condition holds by itself (R13). -/
theorem startClear_copied (d : Device) (st : Straps) :
    (d.startClear .restart st).copyIfQuiet.regions.pendingTable = d.regions.pendingTable
      ∧ (d.startClear .restart st).copyIfQuiet.regions.applyWaiting = false
      ∧ (d.startClear .restart st).copyIfQuiet.regions.active
        = if d.regions.applyWaiting then d.regions.pendingTable else d.regions.active := by
  have hregions : (d.startClear .restart st).regions = d.regions := rfl
  cases hw : d.regions.applyWaiting
  · rw [copyIfQuiet_of_not fun k => by rw [hregions, hw] at k; exact absurd k.1 (by decide)]
    exact ⟨rfl, hw, rfl⟩
  · rw [copyIfQuiet_of_copies (d := d.startClear .restart st) ⟨hw, startClear_quietNow d .restart st⟩]
    exact ⟨rfl, rfl, rfl⟩

theorem startBringUp_of_unconfigured {p : MemPort} (h : p.state = .unconfigured) :
    p.startBringUp = { p with state := .bringingUp, waiting := [], inFlight := none } := by
  unfold MemPort.startBringUp
  rw [h]

theorem startBringUp_of_selfRefresh {p : MemPort} (h : p.state = .selfRefresh) :
    p.startBringUp = { p with state := .exiting, owed := 0, waiting := [], inFlight := none } := by
  unfold MemPort.startBringUp
  rw [h]

/-- The port where a start finds it at work on nothing (R161, R162). -/
theorem startBringUp_begun (p : MemPort) :
    (p.state = .unconfigured → p.startBringUp = { p with state := .bringingUp, waiting := [], inFlight := none })
      ∧ (p.state = .selfRefresh →
        p.startBringUp = { p with state := .exiting, owed := 0, waiting := [], inFlight := none }) :=
  ⟨startBringUp_of_unconfigured, startBringUp_of_selfRefresh⟩

theorem startDefaults_begun (d : Device) (k : StartKind) (hk : k ≠ .restart) (st : Straps)
    (hf : unchangedBut [.host, .regions, .contexts, .own, .queue, .engine, .journal, .rollback, .port, .part, .mgmt] d
      (d.startClear k st).startDefaults) : startBegun k st d (d.startClear k st).startDefaults := by
  obtain ⟨hfirst, hlater⟩ := startBringUp_begun d.port
  refine ⟨hf, ?_, rfl, startClear_ctx d k st, rfl, rfl, rfl, rfl, rfl, hfirst, hlater, fun h => absurd h hk,
    fun _ => ⟨rfl, rfl, rfl⟩⟩
  rw [if_neg hk]
  rfl

theorem restarted_begun (d : Device) (st : Straps) : startBegun .restart st d (d.beginStart .restart st) := by
  have hf := copyIfQuiet_frame (d.startClear .restart st)
  obtain ⟨hfirst, hlater⟩ := startBringUp_begun d.port
  have hhost : (d.beginStart .restart st).host = { d.host with mode := .idle } := hf .host (by decide)
  have hport : (d.beginStart .restart st).port = d.port.startBringUp := hf .port (by decide)
  refine ⟨beginStart_frame d _ st, hf .part (by decide), congrArg (·.mode) hhost, fun c => ?_, hf .own (by decide),
    hf .queue (by decide), hf .engine (by decide), hf .journal (by decide), hf .rollback (by decide),
    fun h => hport.trans (hfirst h), fun h => hport.trans (hlater h),
    fun _ => ⟨hf .mgmt (by decide), congrArg (·.refusal) hhost, startClear_copied d st⟩, fun h => absurd rfl h⟩
  exact (congrArg (·[c]) (hf .contexts (by decide))).trans (startClear_ctx d .restart st c)

/-- A start clears what the spec says a start clears, over any device (R171, R200). -/
theorem beginStart_begun (d : Device) (k : StartKind) (st : Straps) : startBegun k st d (d.beginStart k st) := by
  cases k
  · exact startDefaults_begun d .powerOn (by decide) st (beginStart_frame d .powerOn st)
  · exact startDefaults_begun d .rst (by decide) st (beginStart_frame d .rst st)
  · exact restarted_begun d st

/-! ### The cycle in hand and the leases at the entry to HOLDING -/

/-- The commit waiter flag that the end of a cycle clears is that of the COMMIT awaited (R34). -/
theorem clearWaiter_ctx (d : Device) (k : WaitCond) (c : Ctx) :
    (d.clearWaiter k).ctx c = { d.ctx c with
      commitWaiter := if k = .commitCompletion c then false else (d.ctx c).commitWaiter } := by
  by_cases hk : k = .commitCompletion c
  · subst hk
    rw [if_pos rfl]
    exact Device.ctx_modifyCtx d c _
  · rw [if_neg hk]
    cases k
    case commitCompletion x => exact Device.ctx_modifyCtx_ne d x c _ fun h => hk (by rw [h])
    all_goals rfl

theorem awaitedCommit_of_waiting {d : Device} {w : Waiting} (h : d.host.mode = .waiting w) (c : Ctx) :
    d.awaitedCommit = some c ↔ w.cond = .commitCompletion c := by
  obtain ⟨cycle, cond, timer⟩ := w
  unfold Device.awaitedCommit
  rw [h]
  cases cond <;> simp

theorem awaitedCommit_of_not_waiting {d : Device} (h : ∀ w, d.host.mode ≠ .waiting w) : d.awaitedCommit = none := by
  unfold Device.awaitedCommit
  split
  · next h' => exact absurd h' (h _)
  · rfl

/-- A waiting cycle ends and the leases stop: what is left of each context (R34, R63). -/
theorem clearWaiter_stopped {d : Device} {w : Waiting} (h : d.host.mode = .waiting w) (c : Ctx) :
    (d.clearWaiter w.cond).stopLeases.ctx c = d.stoppedContext c := by
  rw [stopLeases_ctx, clearWaiter_ctx]
  unfold Device.stoppedContext LeaseTimer.stop
  simp only [awaitedCommit_of_waiting h c]

theorem stopLeases_stopped {d : Device} (h : ∀ w, d.host.mode ≠ .waiting w) (c : Ctx) :
    d.stopLeases.ctx c = d.stoppedContext c := by
  rw [stopLeases_ctx]
  unfold Device.stoppedContext LeaseTimer.stop
  simp [awaitedCommit_of_not_waiting h]

theorem holdHost_stopped (d : Device) (c : Ctx) : d.holdHost.stopLeases.ctx c = d.stoppedContext c := by
  cases hm : d.host.mode with
  | waiting w =>
    have hx : d.holdHost = (d.clearWaiter w.cond).answer .held w.cycle.zeros := by
      unfold Device.holdHost
      rw [hm]
    have hs : ((d.clearWaiter w.cond).answer .held w.cycle.zeros).stopLeases.ctx c
        = (d.clearWaiter w.cond).stopLeases.ctx c := by
      rw [stopLeases_ctx, stopLeases_ctx]
      rfl
    rw [hx, hs, clearWaiter_stopped hm]
  | reading r =>
    have hx : d.holdHost = { d with host := { d.host with mode := .reading { r with timer := none } } } := by
      unfold Device.holdHost
      rw [hm]
    rw [hx]
    exact stopLeases_stopped (d := d) (by simp [hm]) c
  | idle =>
    have hx : d.holdHost = d := by
      unfold Device.holdHost
      rw [hm]
    rw [hx, stopLeases_stopped (by simp [hm])]
  | stopped =>
    have hx : d.holdHost = d := by
      unfold Device.holdHost
      rw [hm]
    rw [hx, stopLeases_stopped (by simp [hm])]

theorem holdHost_host (d : Device) : d.holdHost.host = d.heldHost := by
  unfold Device.holdHost Device.heldHost
  cases hm : d.host.mode with
  | waiting w =>
    have hh : (d.clearWaiter w.cond).host = d.host := clearWaiter_frame d w.cond .host (by decide)
    simp only [Device.answer, hh]
  | reading r => rfl
  | idle => rfl
  | stopped => rfl

/-! ### The walk and the pass at the entry to HOLDING -/

theorem isWalkRead_iff (a : Access) : a.isWalkRead = true ↔ ∃ l, a = .read .walk l := by
  unfold Access.isWalkRead
  split <;> simp_all

theorem isHeaderRead_iff (a : Access) : a.isHeaderRead = true ↔ ∃ l, a = .read .header l := by
  unfold Access.isHeaderRead
  split <;> simp_all

/-- No access of a kind is in flight. -/
theorem inFlight_any_iff {p : Access → Bool} {f : Nat → Access} (hp : ∀ a, p a = true ↔ ∃ l, a = f l) (o : Option Access) :
    o.any p = false ↔ ∀ l, o ≠ some (f l) := by
  cases o with
  | none => simp
  | some a =>
    have := hp a
    rw [Option.any_some, Bool.eq_false_iff, ne_eq, this]
    simp

/-- The requests that a withdrawal leaves (R153). -/
theorem mem_asked_withdraw {d : Device} {p : Access → Bool} (h : d.port.inFlight.any p = false) {a : Access} :
    a ∈ (d.withdraw p).port.asked ↔ a ∈ d.port.asked ∧ p a = false := by
  simp only [mem_asked_iff]
  change a ∈ d.port.waiting.filter (fun a => !p a) ∨ d.port.inFlight = some a ↔ _
  rw [List.mem_filter]
  have hf : d.port.inFlight = some a → p a = false := fun k => by rwa [k] at h
  cases hp : p a
  · simp
  · have : d.port.inFlight ≠ some a := fun k => by rw [hf k] at hp; exact absurd hp (by decide)
    simp [this]

theorem holdRollback_of_halts {d : Device} (h : d.walkHalts) : d.holdRollback =
    { d.withdraw Access.isWalkRead with rollback := { d.rollback with state := .halted } } := by
  obtain ⟨hr, hw, hf⟩ := h
  obtain ⟨w, hw, hwords⟩ := Option.map_eq_some_iff.mp hw
  have hc : w.words = [] ∧ d.port.inFlight.any Access.isWalkRead = false :=
    ⟨hwords, (inFlight_any_iff isWalkRead_iff _).mpr hf⟩
  unfold Device.holdRollback
  rw [hr, hw]
  exact if_pos hc

theorem holdRollback_of_not {d : Device} (h : ¬ d.walkHalts) : d.holdRollback = d := by
  unfold Device.holdRollback
  split
  · next w hr hw =>
    refine if_neg fun ⟨hwords, hf⟩ => h ⟨hr, ?_, (inFlight_any_iff isWalkRead_iff _).mp hf⟩
    rw [hw, Option.map_some, hwords]
  · rfl

/-- A pass that stops with no forced reclaim in it, outside RUNNING, asks for no anchor write (R114, R119). -/
theorem passStop_of_holding {d : Device} (p : Pass) (hr : d.journal.reclaim = .idle) (hs : d.part.state = .holding) :
    d.passStop p = { d with journal := { d.journal with
      pass := none
      debt := if p.start ≠ d.journal.liveTail ∧ d.journal.debt < 255 then d.journal.debt + 1 else d.journal.debt } } := by
  unfold Device.passStop
  extract_lets j rises debt d1
  have hreclaim : j.reclaim ≠ .inPass := by rw [show j.reclaim = .idle from hr]; decide
  have hdebt : debt = if p.start ≠ d.journal.liveTail ∧ d.journal.debt < 255 then d.journal.debt + 1
      else d.journal.debt :=
    ite_congr (propext (by rw [Bool.and_eq_true, decide_eq_true_iff, decide_eq_true_iff]; rfl)) (fun _ => rfl)
      fun _ => rfl
  rw [if_neg hreclaim, if_neg (by simp [hs]), ← hdebt]

theorem holdPass_of_stops {d : Device} {p : Pass} (h : d.passStops) (hp : d.journal.pass = some p)
    (hr : d.journal.reclaim = .idle) (hs : d.part.state = .holding) :
    d.holdPass = { d.withdraw Access.isHeaderRead with journal := { d.journal with
      pass := none
      debt := if p.start ≠ d.journal.liveTail ∧ d.journal.debt < 255 then d.journal.debt + 1 else d.journal.debt } } := by
  obtain ⟨hw, hf⟩ := h
  rw [hp, Option.map_some, Option.some.injEq] at hw
  have hc : p.words = [] ∧ d.port.inFlight.any Access.isHeaderRead = false :=
    ⟨hw, (inFlight_any_iff isHeaderRead_iff _).mpr hf⟩
  unfold Device.holdPass
  rw [hp]
  exact (if_pos hc).trans (passStop_of_holding (d := d.withdraw Access.isHeaderRead) p hr hs)

theorem holdPass_of_not {d : Device} (h : ¬ d.passStops) : d.holdPass = d := by
  unfold Device.holdPass
  split
  · next p hp =>
    refine if_neg fun ⟨hwords, hf⟩ => h ⟨?_, (inFlight_any_iff isHeaderRead_iff _).mp hf⟩
    rw [hp, Option.map_some, hwords]
  · rfl

/-! ### The entry to HOLDING as a whole -/

theorem walkHalts_congr {d e : Device} (hr : e.rollback = d.rollback) (hp : e.port.inFlight = d.port.inFlight) :
    e.walkHalts ↔ d.walkHalts := by
  unfold Device.walkHalts
  rw [hr, hp]

theorem passStops_congr {d e : Device} (hj : e.journal.pass = d.journal.pass)
    (hp : e.port.inFlight = d.port.inFlight) : e.passStops ↔ d.passStops := by
  unfold Device.passStops
  rw [hj, hp]

theorem holdRollback_inFlight (d : Device) : d.holdRollback.port.inFlight = d.port.inFlight := by
  by_cases h : d.walkHalts
  · rw [holdRollback_of_halts h]; rfl
  · rw [holdRollback_of_not h]

theorem holdRollback_asked (d : Device) (a : Access) : a ∈ d.holdRollback.port.asked
    ↔ a ∈ d.port.asked ∧ (d.walkHalts → ∀ l, a ≠ .read .walk l) := by
  by_cases h : d.walkHalts
  · have hf : d.port.inFlight.any Access.isWalkRead = false := (inFlight_any_iff isWalkRead_iff _).mpr h.2.2
    have hk : a.isWalkRead = false ↔ ∀ l, a ≠ .read .walk l := by
      rw [Bool.eq_false_iff, ne_eq, isWalkRead_iff, not_exists]
    rw [holdRollback_of_halts h, ← hk]
    exact (mem_asked_withdraw hf).trans (and_congr_right' (by simp [h]))
  · rw [holdRollback_of_not h]
    simp [h]

theorem holdPass_asked {d : Device} (hr : d.journal.reclaim = .idle) (hs : d.part.state = .holding) (a : Access) :
    a ∈ d.holdPass.port.asked ↔ a ∈ d.port.asked ∧ (d.passStops → ∀ l, a ≠ .read .header l) := by
  by_cases h : d.passStops
  · have hf : d.port.inFlight.any Access.isHeaderRead = false := (inFlight_any_iff isHeaderRead_iff _).mpr h.2
    have hk : a.isHeaderRead = false ↔ ∀ l, a ≠ .read .header l := by
      rw [Bool.eq_false_iff, ne_eq, isHeaderRead_iff, not_exists]
    obtain ⟨p, hp, _⟩ := Option.map_eq_some_iff.mp h.1
    rw [holdPass_of_stops h hp hr hs, ← hk]
    exact (mem_asked_withdraw hf).trans (and_congr_right' (by simp [h]))
  · rw [holdPass_of_not h]
    simp [h]

/-- The device whose part is in HOLDING, with the causes of `part`, and nothing else of the entry done (R168). -/
def Device.inHolding (d : Device) (part : PartControl) : Device :=
  { d with part := { part with state := .holding, scan := none } }

theorem enterHolding_eq (d : Device) (part : PartControl) : Device.enterHolding { d with part := part }
    = (d.inHolding part).holdHost.stopLeases.holdRollback.holdRequests.holdPass := rfl

/-- What the host bus port and the lease timers do at the entry leaves the engines and the memory port. -/
theorem heldCycle_frame (d : Device) (part : PartControl) :
    unchangedBut [.contexts, .host] (d.inHolding part) (d.inHolding part).holdHost.stopLeases :=
  (holdHost_frame _).comp (stopLeases_frame _) (by decide) (by decide)

theorem readyLine_of_holding {d : Device} (h : d.part.state = .holding) : d.readyLine = false := by
  unfold Device.readyLine
  rw [h]
  rfl

theorem enterHolding_entered (d : Device) (part : PartControl) :
    holdingEntered part d (Device.enterHolding { d with part := part }) := by
  rw [enterHolding_eq]
  generalize hx : (d.inHolding part).holdHost.stopLeases = x
  have hf : unchangedBut [.contexts, .host] (d.inHolding part) x := hx ▸ heldCycle_frame d part
  have hhost : x.host = d.heldHost := by
    rw [← hx, ← (show (d.inHolding part).heldHost = d.heldHost from rfl), ← holdHost_host]
    rfl
  have hctx : ∀ c, x.ctx c = d.stoppedContext c := fun c => by rw [← hx]; exact holdHost_stopped (d.inHolding part) c
  have hport : x.port = d.port := hf .port (by decide)
  have hjournal : x.journal = d.journal := hf .journal (by decide)
  have hrollback : x.rollback = d.rollback := hf .rollback (by decide)
  have hpart : x.part = { part with state := .holding, scan := none } := hf .part (by decide)
  have hwalk : x.walkHalts ↔ d.walkHalts := walkHalts_congr hrollback (by rw [hport])
  have hr := holdRollback_frame x
  generalize hy : x.holdRollback.holdRequests = y
  have hyf : unchangedBut [.rollback, .port, .journal] x y :=
    hy ▸ (holdRollback_frame x).comp (holdRequests_frame _) (by decide) (by decide)
  have hyj : y.journal = d.journal.heldRequests := by
    rw [← hy, ← hjournal, ← (show x.holdRollback.journal = x.journal from hr .journal (by decide))]
    rfl
  have hyr : y.rollback = x.holdRollback.rollback := by rw [← hy]; rfl
  have hyp : y.port = x.holdRollback.port := by rw [← hy]; rfl
  have hypart : y.part = { part with state := .holding, scan := none } := Eq.trans (hyf .part (by decide)) hpart
  have hpass : y.passStops ↔ d.passStops := passStops_congr (by rw [hyj]; rfl)
    (by rw [hyp, holdRollback_inFlight, hport])
  have hidle : y.journal.reclaim = .idle := by rw [hyj]; rfl
  have hstate : y.part.state = .holding := by rw [hypart]
  have hw := holdPass_frame y
  have hwpart : y.holdPass.part = { part with state := .holding, scan := none } := Eq.trans (hw .part (by decide)) hypart
  have hwr : y.holdPass.rollback = x.holdRollback.rollback := Eq.trans (hw .rollback (by decide)) hyr
  refine ⟨hwpart, readyLine_of_holding (by rw [hwpart]), ?_, fun c => ?_, fun h => ?_, fun h => ?_, fun h => ?_,
    fun h p hp => ?_, fun a _ => ?_⟩
  · exact Eq.trans (hw .host (by decide)) (Eq.trans (hyf .host (by decide)) hhost)
  · have hc : y.holdPass.contexts = x.contexts := Eq.trans (hw .contexts (by decide)) (hyf .contexts (by decide))
    exact (congrArg (·[c]) hc).trans (hctx c)
  · rw [hwr, holdRollback_of_halts (hwalk.mpr h), hrollback]
  · rw [hwr, holdRollback_of_not (mt hwalk.mp h), hrollback]
  · rw [holdPass_of_not (mt hpass.mp h), hyj]
  · have hyjp : y.journal.pass = some p := by rw [hyj]; exact hp
    rw [holdPass_of_stops (hpass.mpr h) hyjp hidle hstate, hyj]
    rfl
  · rw [holdPass_asked hidle hstate, hpass, hyp, holdRollback_asked, hwalk, hport, and_assoc]

/-- What every command ends with, in HOLDING: the part asks for self-refresh entry, or an access is granted, and the
entry to HOLDING stands (R154, R169). -/
theorem holdingEntered.settle {part : PartControl} {d e : Device} (h : holdingEntered part d e) :
    holdingEntered part d e.settle ∧ unchangedBut [.port, .engine] e e.settle := by
  obtain ⟨hpart, _, hhost, hctx, hhalt, hwalk, hjournal, hpass, hasked⟩ := h
  have hclose : e.closeStart = e := closeStart_of_not_starting (by rw [hpart]; simp)
  have hf : unchangedBut [.port, .engine] e e.settle := by
    unfold Device.settle
    rw [hclose]
    exact (tryEnter_frame e).comp (grant_frame _) (by decide) (by decide)
  have hpart' := Eq.trans (hf .part (by decide)) hpart
  refine ⟨⟨hpart', readyLine_of_holding (by rw [hpart']), Eq.trans (hf .host (by decide)) hhost,
    fun c => (congrArg (·[c]) (hf .contexts (by decide))).trans (hctx c),
    fun k => Eq.trans (hf .rollback (by decide)) (hhalt k), fun k => Eq.trans (hf .rollback (by decide)) (hwalk k),
    fun k => Eq.trans (hf .journal (by decide)) (hjournal k),
    fun k p hp => Eq.trans (hf .journal (by decide)) (hpass k p hp), fun a ha => ?_⟩, hf⟩
  rw [← hasked a ha]
  unfold Device.settle
  rw [hclose, mem_asked_grant ha, asked_tryEnter]

end Sys2Proof.Machine
end

section
/-! The memory port's own events: refreshes, the arbiter, self-refresh entry and bring-up (R153-R162, R169, R174). -/

namespace Sys2Proof.Machine

/-- Two runs to the same device end alike. -/
theorem next_withDev_congr (s : State) {d e : Device} (h : d = e) :
    (.next (s.withDev d) : Host.Outcome State Fault Refusal) = .next (s.withDev e) := by rw [h]

/-! ### Refreshes -/

theorem raise_overrun (d : Device) : d.raise .refreshOverrun
    = { d with mgmt := { d.mgmt with causes := d.mgmt.causes ||| 32#7 } } := rfl

theorem refreshDue_eq {d : Device} (h : d.port.owed ≤ 5) : d.refreshDue = { d with
    port := { d.port with owed := if d.port.owed = 5 then 5 else d.port.owed + 1 }
    mgmt := { d.mgmt with causes := if d.port.owed = 5 then d.mgmt.causes ||| 32#7 else d.mgmt.causes } } := by
  unfold Device.refreshDue Config.owedCap
  by_cases h5 : d.port.owed = 5
  · rw [if_neg (by omega), if_pos h5, if_pos h5, raise_overrun, ← h5]
  · rw [if_pos (by omega), if_neg h5, if_neg h5]

theorem closeBanks_of_entering {d : Device} (h : d.port.state = .entering ∧ d.port.inFlight = none) : d.closeBanks =
    { d with port := { d.port with banks := banksClosed, timer := { d.port.timer with running := false } } } := if_pos h

theorem closeBanks_of_not {d : Device} (h : ¬ (d.port.state = .entering ∧ d.port.inFlight = none)) :
    d.closeBanks = d := if_neg h

theorem refreshed_closeBanks (d : Device) : d.refreshed.closeBanks = { d with port := { d.port with
    inFlight := none, owed := d.port.owed - 1, banks := Vector.replicate 8 none
    timer := if d.port.state = .entering then { d.port.timer with running := false } else d.port.timer } } := by
  by_cases h : d.port.state = .entering
  · rw [closeBanks_of_entering (d := d.refreshed) ⟨h, rfl⟩, if_pos h]
    rfl
  · rw [closeBanks_of_not (d := d.refreshed) fun k => h k.1, if_neg h]
    rfl

/-- Settles O49: the expiry and the completion are each one update of the port, behind the test that they can occur. -/
theorem refreshesAreOwed : Obligations.RefreshesAreOwed := by
  intro s h p
  refine ⟨fun hr => ?_, fun hr => ?_, fun hf => ?_, fun hf => if_neg hf⟩
  · have hx : exec .refreshTimerExpiry s = s.onDevice (.next (Device.refreshDue
        { s.dev with port := { p with timer := s.dev.freshRefresh } }).settle) := if_pos hr
    rw [hx, refreshDue_eq (d := { s.dev with port := { p with timer := s.dev.freshRefresh } }) h]
    rfl
  · exact if_neg (by rw [hr]; decide)
  · have hx : exec .refreshComplete s = s.onDevice (.next s.dev.refreshed.closeBanks.settle) := if_pos hf
    rw [hx, refreshed_closeBanks]
    rfl

/-! ### The arbiter -/

/-- The request chosen is of the lowest rank number (R154). -/
theorem bestRequest_least {n : Nat} {l : List Access} {a : Access} (h : bestRequest n l = some a) :
    ∀ b ∈ l, rank n a ≤ rank n b := by
  induction l generalizing a with
  | nil => exact fun b hb => absurd hb List.not_mem_nil
  | cons x xs ih =>
    unfold bestRequest at h
    intro b hb
    split at h
    · next hn =>
      rw [bestRequest_none hn, List.mem_singleton] at hb
      rw [hb, Option.some.inj h]
    · next y hy =>
      have hxs := ih hy
      split at h <;> obtain rfl := Option.some.inj h <;> rcases List.mem_cons.mp hb with rfl | hb
      · omega
      · exact hxs b hb
      · exact le_refl _
      · exact (not_lt.mp ‹_›).trans (hxs b hb)

theorem bestRequest_isSome {n : Nat} {l : List Access} (h : l ≠ []) : ∃ a, bestRequest n l = some a := by
  cases hb : bestRequest n l with
  | none => exact absurd (bestRequest_none hb) h
  | some a => exact ⟨a, rfl⟩

/-- The rank numbers of the nine requests (R153). -/
theorem rank_table (owed line : Nat) (w : LineWrite) :
    rank owed .refresh = (if 3 ≤ owed then 1 else 9) ∧ rank owed (.write (.anchor true) w) = 2
    ∧ rank owed (.read .host line) = 3
    ∧ rank owed (.read .oldLine line) = 4 ∧ rank owed (.write .data w) = 4
    ∧ rank owed (.write (.append .writeEngine) w) = 4
    ∧ rank owed (.read .walk line) = 5 ∧ rank owed (.write .restore w) = 5
    ∧ rank owed (.write (.append .rollbackEngine) w) = 5
    ∧ rank owed (.read .anchor line) = 6 ∧ rank owed (.read .scan line) = 6
    ∧ rank owed (.read .header line) = 7 ∧ rank owed (.write (.anchor false) w) = 8 :=
  ⟨rfl, rfl, rfl, rfl, rfl, rfl, rfl, rfl, rfl, rfl, rfl, rfl, rfl⟩

theorem onGrant_gather (g : Group) (a : Access) : (Engine.gather g).onGrant a = match a with
    | .read .oldLine _ => .oldRead g
    | _ => .gather g := by
  cases a with
  | read u l => cases u <;> rfl
  | write u w => rfl
  | refresh => rfl

theorem banksAfterGrant_eq (b : Vector (Option Nat) 8) (a : Access) : banksAfterGrant b a = match a.line? with
    | some l => b.set (l / 2048 % 8) (some (l / 16384)) (Nat.mod_lt _ (by decide))
    | none => b := by
  unfold banksAfterGrant
  cases a.line? <;> rfl

theorem grant_of_best {d : Device} {a : Access} (hs : d.port.state = .active) (hf : d.port.inFlight = none)
    (h : bestRequest d.port.owed d.port.requests = some a) : d.grant = d.granted a := by
  unfold Device.grant
  rw [if_pos ⟨hs, hf⟩, h]

/-- Settles O50: the arbiter takes the head of the list unless a later request ranks below it, so the one it grants ranks
lowest. -/
theorem arbiterGrantsByRank : Obligations.ArbiterGrantsByRank := by
  refine ⟨rank_table, ?_⟩
  intro d asked
  refine ⟨fun h => ?_, fun hs hf hne => ?_⟩
  · rcases h with h | h | h
    · exact grant_of_not_active h
    · exact grant_of_busy h
    · unfold Device.grant
      split
      · rw [show d.port.requests = [] from h]
        rfl
      · rfl
  · obtain ⟨a, ha⟩ := bestRequest_isSome (n := d.port.owed) hne
    have hg := grant_of_best hs hf ha
    refine ⟨a, bestRequest_mem ha, bestRequest_least ha, grant_frame d, ?_, fun g hd => ?_, grant_engine⟩
    · rw [hg]
      exact congrArg (fun b => { d.port with waiting := d.port.waiting.erase a, inFlight := some a, banks := b })
        (banksAfterGrant_eq d.port.banks a)
    · rw [hg]
      exact (congrArg (·.onGrant a) hd).trans (onGrant_gather g a)

/-! ### Self-refresh entry -/

/-- Every block is idle, in the words of the table of R168. -/
def Device.idleNow (d : Device) : Prop :=
  d.host.mode = .idle ∧ d.queue = [] ∧ d.engine = .idle
    ∧ (d.rollback.state = .idle ∨ d.rollback.state = .halted) ∧ d.journal.append = none ∧ d.journal.appendWaiting = none
    ∧ d.journal.pass = none ∧ d.journal.anchor = none ∧ d.port.waiting = []

theorem enters_iff (d : Device) : d.enters ↔ d.part.state = .holding ∧ d.port.state = .active ∧ d.idleNow
    ∧ (d.port.inFlight = none ∨ d.port.inFlight = some .refresh) := by
  unfold Device.enters Device.blocksIdle Device.requestersIdle Device.idleNow
  simp only [Bool.and_eq_true, Bool.or_eq_true, decide_eq_true_eq]
  tauto

theorem tryEnter_of_enters {d : Device} (h : d.enters) :
    d.tryEnter = Device.closeBanks { d with port := { d.port with state := .entering } } := if_pos h

/-- The part asks for self-refresh entry at the end of a command where it may (R169). -/
theorem settle_of_enters {d : Device} (h : d.enters) :
    d.settle = Device.closeBanks { d with port := { d.port with state := .entering } } := by
  have hs : d.part.state ≠ .starting := by rw [h.1]; decide
  unfold Device.settle
  rw [closeStart_of_not_starting hs, grant_of_not_active (by rw [tryEnter_state h]; decide), tryEnter_of_enters h]

theorem settle_portState {d : Device} (h : ¬ d.enters) : d.settle.port.state = d.port.state := by
  have hclose : d.closeStart.tryEnter = d.closeStart := by
    by_cases hs : d.part.state = .holding
    · have hd : d.closeStart = d := closeStart_of_not_starting (by rw [hs]; decide)
      rw [hd, (tryEnter_eq_self_iff d).mpr h]
    · exact tryEnter_of_not_holding (by rwa [closeStart_frame d .part (by decide)])
  unfold Device.settle
  rw [hclose]
  exact (grant_portKept d.closeStart).1.trans (closeStart_grows d).kept.1

/-! ### HELD -/

theorem restartIfFree_starts {d : Device} {st : Straps} (h : d.part.state = .held) (hw : d.part.pfwarn = false)
    (hf : d.part.holdFlag = false) : d.restartIfFree st = d.beginStart .restart st :=
  if_pos ⟨h, by simp [Device.holdCause, hw, hf]⟩

theorem restartIfFree_stays {d : Device} {st : Straps}
    (h : d.part.state ≠ .held ∨ d.part.pfwarn = true ∨ d.part.holdFlag = true) : d.restartIfFree st = d := by
  refine if_neg fun ⟨hs, hc⟩ => ?_
  simp only [Device.holdCause, Bool.or_eq_false_iff] at hc
  rcases h with h | h | h
  · exact h hs
  · exact absurd (h.symm.trans hc.1) (by decide)
  · exact absurd (h.symm.trans hc.2) (by decide)

/-- The device in SELF_REFRESH and HELD (R159, R169). -/
def Device.asleepHeld (d : Device) : Device :=
  { d with port := { d.port with state := .selfRefresh }, part := { d.part with state := .held } }

theorem exec_selfRefreshEntryComplete {s : State} {st : Straps} (he : s.dev.port.state = .entering)
    (hf : s.dev.port.inFlight = none) : exec (.selfRefreshEntryComplete st) s
      = .next (s.withDev (s.dev.asleepHeld.restartIfFree st)) := if_pos ⟨he, hf⟩

/-! ### Bring-up -/

/-- The port is at work, and the part has had its bring-up (R161, R162). -/
def Device.broughtUpNow (d : Device) : Device :=
  { d with
    port := { d.port with state := .active, banks := banksClosed, owed := 0, timer := d.freshRefresh }
    part := { d.part with broughtUp := true } }

theorem exec_broughtUp {s : State} {i : Instr} (h : i = .selfRefreshExitComplete ∧ s.dev.port.state = .exiting
      ∨ i = .bringUpComplete ∧ s.dev.port.state = .bringingUp) :
    exec i s = .next (s.withDev s.dev.bringUpReport.settle) := by
  rcases h with ⟨rfl, h⟩ | ⟨rfl, h⟩ <;> exact if_pos h

theorem bringUpReport_free {d : Device} (hw : d.part.pfwarn = false) (hf : d.part.holdFlag = false) :
    d.bringUpReport = { d with
      port := { d.port with
        state := .active, banks := banksClosed, owed := 0, timer := d.freshRefresh
        waiting := d.port.waiting ++ [.read .anchor (journalBase d.part.straps)] }
      part := { d.part with broughtUp := true, phase := some .anchor } } := by
  have hc : ¬ d.broughtUpNow.holdCause = true := by simp [Device.holdCause, Device.broughtUpNow, hw, hf]
  exact if_neg hc

theorem bringUpReport_held {d : Device} (h : d.part.pfwarn = true ∨ d.part.holdFlag = true) :
    d.bringUpReport = d.broughtUpNow.enterHolding := by
  have hc : d.broughtUpNow.holdCause = true := by
    simp only [Device.holdCause, Bool.or_eq_true]
    exact h
  exact if_pos hc

/-- In a start before UNDO the end of a command is the grant moment alone. -/
theorem settle_before_undo {d : Device} (hs : d.part.state = .starting) (hp : d.part.phase ≠ some .undo) :
    d.settle = d.grant := by
  have hclose : d.closeStart = d := if_neg fun ⟨_, k, _⟩ => hp k
  unfold Device.settle
  rw [hclose, tryEnter_of_not_holding (by rw [hs]; decide)]

/-- With no read to withdraw the entry to HOLDING leaves the memory port. -/
theorem enterHolding_port {d : Device} (part : PartControl) (hw : ¬ d.walkHalts) (hp : ¬ d.passStops) :
    (Device.enterHolding { d with part := part }).port = d.port := by
  rw [enterHolding_eq]
  have hf := heldCycle_frame d part
  generalize (d.inHolding part).holdHost.stopLeases = x at hf
  have hport : x.port = d.port := hf .port (by decide)
  have hwalk : ¬ x.walkHalts :=
    mt (walkHalts_congr (d := d) (hf .rollback (by decide)) (congrArg (·.inFlight) hport)).mp hw
  have hpass : x.journal.pass = d.journal.pass := congrArg (·.pass) (hf .journal (by decide))
  have hstops : ¬ x.holdRequests.passStops :=
    mt (passStops_congr (d := d) (e := x.holdRequests) hpass (congrArg (·.inFlight) hport)).mp hp
  rw [holdRollback_of_not hwalk, holdPass_of_not hstops]
  exact hport

section
variable {d : Device}

theorem Device.idleNow.not_walkHalts (h : d.idleNow) : ¬ d.walkHalts := by
  obtain ⟨_, _, _, hr, _⟩ := h
  rintro ⟨hw, _⟩
  rcases hr with k | k <;> rw [k] at hw <;> exact absurd hw (by decide)

theorem Device.idleNow.not_passStops (h : d.idleNow) : ¬ d.passStops := by
  obtain ⟨_, _, _, _, _, _, hp, _⟩ := h
  rintro ⟨hw, _⟩
  rw [hp] at hw
  exact absurd hw nofun

/-- Where every block is idle the entry to HOLDING leaves the blocks at rest. -/
theorem Device.idleNow.enterHolding (h : d.idleNow) (part : PartControl) :
    (Device.enterHolding { d with part := part }).idleNow
      ∧ unchangedBut [.contexts, .journal, .part] d (Device.enterHolding { d with part := part }) := by
  have hentered := enterHolding_entered d part
  have hport := enterHolding_port part h.not_walkHalts h.not_passStops
  have hf : unchangedBut holdBlocks d (Device.enterHolding { d with part := part }) :=
    (part_frame d part).comp (enterHolding_frame { d with part := part }) (by decide) (by decide)
  generalize Device.enterHolding { d with part := part } = e at hentered hport hf
  obtain ⟨_, _, hhost, _, _, hwalk, hjournal, _⟩ := hentered
  have hr := hwalk h.not_walkHalts
  have hj := hjournal h.not_passStops
  obtain ⟨hmode, hqueue, hengine, hroll, happend, hwaiting, hpass, hanchor, hrequests⟩ := h
  have hh : e.host = d.host := by rw [hhost]; unfold Device.heldHost; rw [hmode]
  have hq : e.queue = d.queue := hf .queue (by decide)
  have he : e.engine = d.engine := hf .engine (by decide)
  refine ⟨⟨by rw [hh, hmode], hq.trans hqueue, he.trans hengine, by rwa [hr], by rw [hj]; exact happend,
    by rw [hj]; exact hwaiting, by rw [hj]; exact hpass, by rw [hj]; exact hanchor, by rwa [hport]⟩, fun b hb => ?_⟩
  cases b
  case host => exact hh
  case rollback => exact hr
  case port => exact hport
  case contexts => exact absurd (by decide) hb
  case journal => exact absurd (by decide) hb
  case part => exact absurd (by decide) hb
  all_goals exact hf _ (by decide)

end

/-- Bring-up completes under a hold cause with every block idle: the part is in HOLDING and asks for self-refresh entry at
once (R169, R174). -/
theorem broughtUp_held {d : Device} (hi : d.idleNow) (hf : d.port.inFlight = none) :
    let e := d.broughtUpNow.enterHolding.settle
    unchangedBut [.contexts, .journal, .port, .part] d e
      ∧ e.part = { d.part with broughtUp := true, state := .holding, scan := none }
      ∧ e.port = { d.port with
          state := .entering, banks := banksClosed, owed := 0, timer := { d.freshRefresh with running := false } } := by
  intro e
  have hidle : d.broughtUpNow.idleNow := hi
  obtain ⟨hpart, _⟩ := enterHolding_entered d.broughtUpNow d.broughtUpNow.part
  obtain ⟨hnow, hframe⟩ := hidle.enterHolding d.broughtUpNow.part
  have hx : e = d.broughtUpNow.enterHolding.settle := rfl
  change d.broughtUpNow.enterHolding.part = _ at hpart
  change d.broughtUpNow.enterHolding.idleNow at hnow
  change unchangedBut _ _ d.broughtUpNow.enterHolding at hframe
  generalize d.broughtUpNow.enterHolding = x at hx hpart hnow hframe
  have hport : x.port = d.broughtUpNow.port := hframe .port (by decide)
  have hfree : x.port.inFlight = none := (congrArg (·.inFlight) hport).trans hf
  have henters : x.enters := (enters_iff x).mpr ⟨by rw [hpart], by rw [hport]; rfl, hnow, Or.inl hfree⟩
  have he : e = { x with port := { x.port with
      state := .entering, banks := banksClosed, timer := { x.port.timer with running := false } } } := by
    exact (hx.trans (settle_of_enters henters)).trans (if_pos ⟨rfl, hfree⟩)
  refine ⟨?_, by rw [he]; exact hpart, by rw [he, hport]; rfl⟩
  have hup : unchangedBut [.port, .part] d d.broughtUpNow :=
    (port_frame d _).comp (part_frame { d with port := d.broughtUpNow.port } _) (by decide) (by decide)
  have hdx : unchangedBut [.contexts, .journal, .port, .part] d x := hup.comp hframe (by decide) (by decide)
  rw [he]
  exact hdx.comp (port_frame x _) (by decide) (by decide)

/-- Settles O51: the entry is `Device.tryEnter` at the end of a command, HELD is left by `Device.restartIfFree`, and a
bring-up ends in ANCHOR or, under a hold cause, in HOLDING, which it leaves at once. -/
theorem selfRefreshAndBringUp : Obligations.SelfRefreshAndBringUp := by
  unfold Obligations.SelfRefreshAndBringUp
  intro idle
  refine ⟨?_, ?_, ?_⟩
  · intro d ha ready p
    have hiff : ready ↔ d.enters := by
      rw [enters_iff]
      exact ⟨fun ⟨h1, h2, h3⟩ => ⟨h1, ha, h2, h3⟩, fun ⟨h1, _, h2, h3⟩ => ⟨h1, h2, h3⟩⟩
    refine ⟨fun h => ?_, fun h => (settle_portState (mt hiff.mpr h)).trans ha⟩
    rw [settle_of_enters (hiff.mp h)]
    by_cases hf : d.port.inFlight = none
    · rw [if_pos hf]
      exact if_pos ⟨rfl, hf⟩
    · rw [if_neg hf]
      exact if_neg fun k => hf k.2
  · intro s st he hf d
    have hx := exec_selfRefreshEntryComplete (st := st) he hf
    refine ⟨fun h => ⟨hx.trans ?_, rfl, rfl⟩, fun hw hh => ⟨_, hx.trans ?_, beginStart_begun d .restart st⟩⟩
    · exact next_withDev_congr s (restartIfFree_stays (d := d) (Or.inr h))
    · exact next_withDev_congr s (restartIfFree_starts (d := d) rfl hw hh)
  · intro s i hs _ hi p
    have hx := exec_broughtUp hi
    refine ⟨fun hw hf => hx.trans ?_, fun h hidle hf => ⟨_, hx, ?_⟩⟩
    · rw [bringUpReport_free hw hf]
      exact next_withDev_congr s (settle_before_undo hs nofun)
    · rw [bringUpReport_held h]
      exact broughtUp_held hidle hf

end Sys2Proof.Machine
end

section
/-! WRITE frames: how their bytes lie, which row they are of, and what each test discards (R186, R190, R192). -/

namespace Sys2Proof.Machine

/-! ### The layout of a frame -/

theorem drop_take_four {bs : List Byte} {n : Nat} (h : n + 4 ≤ bs.length) :
    (bs.drop n).take 4 = [bs.getD n 0, bs.getD (n + 1) 0, bs.getD (n + 2) 0, bs.getD (n + 3) 0] := by
  refine List.ext_getElem (by simp; omega) fun k hk _ => ?_
  have hk4 : k < 4 := lt_of_lt_of_le hk (List.length_take_le _ _)
  rw [List.getElem_take, List.getElem_drop]
  interval_cases k <;> simp only [List.getElem_cons_zero, List.getElem_cons_succ, Nat.add_zero] <;>
    rw [List.getD_eq_getElem _ _ (by omega)]

theorem frame_word_bytes {f : Frame} {k : Nat} (h : 7 + 4 * k ≤ f.bytes.length) :
    f.word k = f.bytes.getD (3 + 4 * k) 0 ++ f.bytes.getD (4 + 4 * k) 0 ++ f.bytes.getD (5 + 4 * k) 0
      ++ f.bytes.getD (6 + 4 * k) 0 := by
  unfold Frame.word
  rw [drop_take_four (by omega), show 3 + 4 * k + 1 = 4 + 4 * k by omega, show 3 + 4 * k + 2 = 5 + 4 * k by omega,
    show 3 + 4 * k + 3 = 6 + 4 * k by omega]
  rfl

theorem words_of_code {f : Frame} {c : BitVec 2} (h : (f.bytes.getD 0 0).extractLsb' 4 2 = c) :
    f.words = if c = 0 then some 1 else if c = 1 then some 2 else if c = 2 then some 4 else none := by
  rw [← h]
  rfl

theorem tooLong_iff (f : Frame) (w : Nat) : f.tooLong w = true
    ↔ f.declared w < f.bytes.length ∨ (f.bytes.length = f.declared w ∧ 0 < f.extraBits.val) := by
  unfold Frame.tooLong
  simp only [Bool.or_eq_true, Bool.and_eq_true, decide_eq_true_eq]
  omega

theorem frameLayout_holds (f : Frame) : frameLayout f := by
  refine ⟨rfl, ?_, fun h => words_of_code h, fun h => words_of_code h, fun h => words_of_code h,
    fun h => words_of_code h, fun w => ⟨?_, tooLong_iff f w, ?_, fun k hk hl => frame_word_bytes (by omega)⟩⟩
  · unfold Frame.item
    rw [Nat.mul_comm]
  · exact decide_eq_true_iff
  · unfold Frame.crcGood
    rw [Bool.or_eq_true, Bool.not_eq_true', decide_eq_true_iff]
    rfl

/-! ### The rows -/

theorem word_eq_iff (v : Word) : (v = 1 ↔ v.toNat = 1) ∧ (v = 2 ↔ v.toNat = 2) ∧ (v = 3 ↔ v.toNat = 3) :=
  ⟨BitVec.toNat_inj.symm, BitVec.toNat_inj.symm, BitVec.toNat_inj.symm⟩

theorem frameRows_holds (f : Frame) : frameRows f := by
  refine ⟨fun hl hr => row_of_read hl hr, fun hl hw hn => ?_⟩
  · have hrow := row_of_write hl hw hn
    obtain ⟨h1, h2, h3⟩ := word_eq_iff (f.word 0)
    simp only [h1, h2, h3] at hrow ⊢
    generalize (f.word 0).toNat = v at hrow ⊢
    generalize f.item = n at hrow ⊢
    generalize f.row = r at hrow ⊢
    split_ifs at hrow <;> subst hrow <;> simp only [reduceCtorEq, ne_eq, true_iff, false_iff, not_false_eq_true,
      and_true] <;> omega

section
variable {f : Frame} {w : Nat}

/-- What the row of a frame that arrives says of its item and its first word. -/
theorem frameArrives.rows (h : frameArrives f w) (hr : f.row ≠ .read) :
    let n := f.item
    (f.row = .pendingTable ↔ 0x020 ≤ n ∧ n ≤ 0x02F) ∧ (f.row = .activeTable ↔ 0x030 ≤ n ∧ n ≤ 0x03F)
      ∧ (f.row = .apply ↔ n = 0x040) ∧ (f.row = .format ↔ n = 0x060 ∧ f.word 0 = 1)
      ∧ (f.row = .hold ↔ n = 0x060 ∧ f.word 0 = 2) ∧ (f.row = .release ↔ n = 0x060 ∧ f.word 0 = 3)
      ∧ (f.row = .causesClear ↔ n = 0x070) ∧ (f.row = .maskWrite ↔ n = 0x071)
      ∧ f.row ≠ .read ∧ f.row ≠ .none := by
  have hl := h.length
  have hw := h.words_pos
  exact (frameRows_holds f).2 (by omega) (isWrite_of_row (by omega) hr) (by rw [h.2.1]; simp)

end

/-! ### A WRITE frame runs -/

theorem frameOfRow_next {s : State} {f : Frame} {row : FrameRow} (st : Straps) (ht : s.takes f) (hr : f.fits row = true)
    (he : f.ended = true) : s.onDevice (s.dev.frameOfRow row f st) = .next (s.withDev (s.dev.writeFrame f st)) := by
  have h : s.dev.frameOfRow row f st = .next (s.dev.writeFrame f st) :=
    frameOfRow_eq_next.mpr ⟨hr, clockFrame_eq_next.mpr (Or.inr ⟨ht.1, ht.2, (if_pos he).symm⟩)⟩
  rw [h]
  rfl

theorem fits_of_row {f : Frame} {row : FrameRow} (h : f.row = row) (he : f.ended = true) : f.fits row = true := by
  unfold Frame.fits
  rw [if_pos he]
  exact decide_eq_true h

/-- The command of a WRITE frame row that has ended runs the frame (R187, R190). -/
theorem exec_of_frameWritten {s : State} {i : Instr} {f : Frame} (h : frameWritten i = some f) (ht : s.takes f) :
    ∃ st, exec i s = .next (s.withDev (s.dev.writeFrame f st)) := by
  have runs : ∀ (row : FrameRow) (g : Frame) (st : Straps),
      ((if g.fits row then some g else none).filter fun f => f.ended) = some f →
      s.onDevice (s.dev.frameOfRow row g st) = .next (s.withDev (s.dev.writeFrame f st)) := fun row g st k => by
    obtain ⟨hg, he⟩ := Option.filter_eq_some_iff.mp k
    obtain ⟨hfit, hgf⟩ := Option.ite_none_right_eq_some.mp hg
    obtain rfl := Option.some.inj hgf
    exact frameOfRow_next st ht hfit he
  cases i
  case pendingTableWrite g => exact ⟨_, runs .pendingTable g _ h⟩
  case activeTableWrite g => exact ⟨_, runs .activeTable g _ h⟩
  case applyRequest g => exact ⟨_, runs .apply g _ h⟩
  case formatCommand g => exact ⟨_, runs .format g _ h⟩
  case holdCommand g => exact ⟨_, runs .hold g _ h⟩
  case releaseCommand g st => exact ⟨_, runs .release g st h⟩
  case alertCausesClear g => exact ⟨_, runs .causesClear g _ h⟩
  case alertMaskWrite g => exact ⟨_, runs .maskWrite g _ h⟩
  case settingWrite g => exact ⟨_, runs .setting g _ h⟩
  all_goals exact absurd h nofun

/-! ### What a frame's end and its tests leave -/

/-- The end of a command does not look at the frame result. -/
theorem endFrame_settle {d : Device} (h : d.settle = d) (f : Frame) (out : Device) (r : FrameResult) :
    (d.endFrame f out r).settle = d.endFrame f out r := settle_congr h rfl rfl rfl rfl Iff.rfl rfl rfl rfl

theorem mgmt_settle {d : Device} (h : d.settle = d) (m : Management) :
    Device.settle { d with mgmt := m } = { d with mgmt := m } := settle_congr h rfl rfl rfl rfl Iff.rfl rfl rfl rfl

section
variable {d : Device} {f : Frame} {w : Nat} {r : FrameResult}

/-- A frame that fails a test other than that of the check byte changes nothing but the frame result (R190). -/
theorem writeFrame_discards (hs : d.settle = d) (hr : d.writeResult f = r) (hok : r ≠ .ok) (hcrc : r ≠ .crcMismatch)
    (st : Straps) : d.writeFrame f st = d.endFrame f d r := by
  have he : d.writeEffect f st r = d := by
    unfold Device.writeEffect
    split
    · exact absurd rfl hok
    · exact absurd rfl hcrc
    · rfl
  unfold Device.writeFrame
  simp only [hr, he]
  exact endFrame_settle hs f d r

theorem writeFrame_crc (hs : d.settle = d) (hr : d.writeResult f = .crcMismatch) (st : Straps) :
    d.writeFrame f st = Device.endFrame { d with mgmt := { d.mgmt with causes := d.mgmt.causes ||| 64#7 } } f d
      .crcMismatch := by
  unfold Device.writeFrame
  simp only [hr]
  exact endFrame_settle (d := { d with mgmt := { d.mgmt with causes := d.mgmt.causes ||| 64#7 } }) (mgmt_settle hs _) f d _

/-- A frame that passes every test writes its items (R190). -/
theorem writeFrame_ok (hr : d.writeResult f = .ok) (hw : f.words = some w) (st : Straps) :
    d.writeFrame f st = ((d.writeItems st (f.writes w)).endFrame f d .ok).settle := by
  unfold Device.writeFrame Device.writeEffect
  simp only [hr, hw]

theorem writeResult_length (h : f.words = none) : d.writeResult f = .length := by
  unfold Device.writeResult
  simp only [h]

theorem writeResult_short (h : f.words = some w) (hs : f.tooShort w = true) : d.writeResult f = .short := by
  unfold Device.writeResult
  simp only [h, hs, if_true]

theorem writeResult_long (h : f.words = some w) (hs : f.tooShort w = false) (hl : f.tooLong w = true) :
    d.writeResult f = .length := by
  unfold Device.writeResult
  simp only [h, hs, hl, Bool.false_eq_true, if_false, if_true]

theorem writeResult_crc (h : f.words = some w) (hs : f.tooShort w = false) (hl : f.tooLong w = false)
    (hc : f.crcGood w = false) : d.writeResult f = .crcMismatch := by
  unfold Device.writeResult
  simp only [h, hs, hl, hc, Bool.false_eq_true, if_false, Bool.not_false, if_true]

theorem writeResult_badItem (h : frameArrives f w) {k : Nat} (hk : k < w)
    (hbad : writeGood (f.item + k) (f.word k) = false) : d.writeResult f = .badItem := by
  rw [writeResult_of_arrives h, if_pos]
  rw [Bool.not_eq_true', List.all_eq_false]
  exact ⟨_, mem_writes.mpr ⟨k, hk, rfl⟩, by simp [hbad]⟩

theorem writeResult_refused (h : frameArrives f w) (hg : ∀ k < w, writeGood (f.item + k) (f.word k) = true) {k : Nat}
    (hk : k < w) (hr : d.writeRefused (f.item + k) (f.word k) = true) : d.writeResult f = .refused := by
  have hall : ((f.writes w).all fun p => writeGood p.1 p.2) = true := List.all_eq_true.mpr fun p hp => by
    obtain ⟨j, hj, rfl⟩ := mem_writes.mp hp
    exact hg j hj
  have hany : ((f.writes w).any fun p => d.writeRefused p.1 p.2) = true :=
    List.any_eq_true.mpr ⟨_, mem_writes.mpr ⟨k, hk, rfl⟩, hr⟩
  rw [writeResult_of_arrives h, hall, hany]
  rfl

theorem writeResult_good (h : frameArrives f w) (hg : ∀ k < w, writeGood (f.item + k) (f.word k) = true)
    (hr : ∀ k < w, d.writeRefused (f.item + k) (f.word k) = false) : d.writeResult f = .ok := by
  have hall : ((f.writes w).all fun p => writeGood p.1 p.2) = true := List.all_eq_true.mpr fun p hp => by
    obtain ⟨j, hj, rfl⟩ := mem_writes.mp hp
    exact hg j hj
  have hany : ((f.writes w).any fun p => d.writeRefused p.1 p.2) = false := List.any_eq_false.mpr fun p hp => by
    obtain ⟨j, hj, rfl⟩ := mem_writes.mp hp
    simp [hr j hj]
  rw [writeResult_of_arrives h, hall, hany]
  rfl

end

/-! ### The values that an item takes -/

theorem settingRange_takes {n v : Nat} (hn : 0x050 ≤ n ∧ n ≤ 0x056) :
    ((settingRange (n - 0x050)).1 ≤ v ∧ v ≤ (settingRange (n - 0x050)).2) ↔ itemTakes n v := by
  obtain ⟨k, rfl⟩ : ∃ k, n = 0x050 + k := ⟨n - 0x50, by omega⟩
  have hk : k < 7 := by omega
  unfold itemTakes
  interval_cases k <;> simp [settingRange]

/-- Test 3 of R190 is that the item is one that is written and takes the value (R192). -/
theorem writeGood_iff (n : Nat) (v : Word) : writeGood n v = true ↔ itemTakes n v.toNat := by
  unfold writeGood
  obtain ⟨h1, h2, h3⟩ := word_eq_iff v
  split_ifs with hp ha hs hc
  · exact iff_of_true rfl (Or.inl hp)
  · rw [decide_eq_true_iff]
    unfold itemTakes
    exact h1.trans (by omega)
  · rw [Bool.and_eq_true, decide_eq_true_iff, decide_eq_true_iff]
    exact settingRange_takes hs
  · rw [Bool.or_eq_true, Bool.or_eq_true, decide_eq_true_iff, decide_eq_true_iff, decide_eq_true_iff]
    unfold itemTakes
    exact (or_congr (or_congr h1 h2) h3).trans (by omega)
  · rw [Bool.or_eq_true, decide_eq_true_iff, decide_eq_true_iff]
    unfold itemTakes
    constructor
    · rintro (rfl | rfl) <;> simp
    · omega

/-- Settles O58: each test decides the result, and the result decides the effect. -/
theorem writeFramesDiscarded : Obligations.WriteFramesDiscarded := by
  refine ⟨frameLayout_holds, fun s i f hi ht hset => ?_⟩
  intro discarded
  obtain ⟨st, hx⟩ := exec_of_frameWritten hi ht
  have discards : ∀ {r : FrameResult}, s.dev.writeResult f = r → r ≠ .ok → r ≠ .crcMismatch → discarded r :=
    fun hr hok hcrc => hx.trans (next_withDev_congr s (writeFrame_discards hset.1 hr hok hcrc st))
  refine ⟨fun hn => discards (writeResult_length hn) nofun nofun, fun w hw => ⟨fun hs => ?_, fun hs hl => ?_,
    fun hs hl hc => ?_, fun ha ⟨k, hk, hbad⟩ => ?_⟩⟩
  · exact discards (writeResult_short hw hs) nofun nofun
  · exact discards (writeResult_long hw hs hl) nofun nofun
  · exact hx.trans (next_withDev_congr s (writeFrame_crc hset.1 (writeResult_crc hw hs hl hc) st))
  · have hg : writeGood (f.item + k) (f.word k) = false := by
      rw [Bool.eq_false_iff, ne_eq, writeGood_iff]
      exact hbad
    exact discards (writeResult_badItem ha hk hg) nofun nofun

end Sys2Proof.Machine
end

section
/-! The hold causes: PFWARN, HOLD and RELEASE (R166-R170, R196). -/

namespace Sys2Proof.Machine

/-! ### What a hold cause does by the part state -/

section
variable {d : Device}

/-- The part states from which a hold cause enters HOLDING (R166). -/
def Device.holdEnters (d : Device) : Prop :=
  d.part.state = .running ∨ (d.part.state = .starting ∧ d.part.phase ≠ some .bringUp)

theorem holdReact_of_enters (h : d.holdEnters) : d.holdReact = d.enterHolding := by
  unfold Device.holdReact
  split
  · rfl
  · next hs hp => exact absurd hp (h.resolve_left (by rw [hs]; decide)).2
  · rfl
  all_goals
    next hs => exact h.elim (fun k => absurd (hs.symm.trans k) (by decide)) fun k => absurd (hs.symm.trans k.1) (by decide)

theorem holdReact_of_notes (h : ¬ d.holdEnters) : d.holdReact = d := by
  unfold Device.holdReact
  split
  · next hs => exact absurd (Or.inl hs) h
  · rfl
  · next hs hp => exact absurd (Or.inr ⟨hs, hp⟩) h
  all_goals rfl

theorem not_holdEnters (h : (d.part.state = .starting ∧ d.part.phase = some .bringUp)
      ∨ d.part.state = .holding ∨ d.part.state = .held ∨ d.part.state = .stopped) : ¬ d.holdEnters := by
  unfold Device.holdEnters
  rcases h with ⟨hs, hp⟩ | hs | hs | hs <;> simp [hs]
  exact hp

/-- A change of the hold causes alone leaves nothing more to settle. -/
theorem holdCause_settle (h : d.settle = d) {p : PartControl} (hs : p.state = d.part.state)
    (hp : p.phase = d.part.phase) : Device.settle { d with part := p } = { d with part := p } :=
  settle_congr h hs hp rfl rfl Iff.rfl rfl rfl rfl

theorem beginStart_settle (k : StartKind) (st : Straps)
    (h : d.port.state = .unconfigured ∨ d.port.state = .selfRefresh) : (d.beginStart k st).settle = d.beginStart k st :=
  settle_of_inactive (beginStart_inactive k st h).1 (beginStart_inactive k st h).2

/-- HOLDING is entered, and then the command ends (R166, R168). -/
theorem holdEnters.settled (part : PartControl) :
    unchangedBut [.host, .contexts, .rollback, .journal, .port, .part, .engine] d
        (Device.settle (Device.enterHolding { d with part := part }))
      ∧ holdingEntered part d (Device.settle (Device.enterHolding { d with part := part })) := by
  obtain ⟨hentered, hf⟩ := (enterHolding_entered d part).settle
  have hd : unchangedBut holdBlocks d (Device.enterHolding { d with part := part }) :=
    (part_frame d part).comp (enterHolding_frame { d with part := part }) (by decide) (by decide)
  exact ⟨hd.comp hf (by decide) (by decide), hentered⟩

end

/-! ### PFWARN -/

theorem exec_pfwarnAsserted (s : State) : exec .pfwarnAsserted s = .next (s.withDev s.dev.warn.settle) := rfl

theorem warn_of_clear {d : Device} (h : d.part.pfwarn = false) :
    d.warn = Device.holdReact { d with part := { d.part with pfwarn := true } } := by
  unfold Device.warn
  rw [h]
  rfl

theorem warn_of_set {d : Device} (h : d.part.pfwarn = true) : d.warn = d := if_pos h

theorem pfwarn_enters {s : State} (he : s.dev.holdEnters) (hw : s.dev.part.pfwarn = false) : ∃ d,
    exec .pfwarnAsserted s = .next (s.withDev d)
      ∧ unchangedBut [.host, .contexts, .rollback, .journal, .port, .part, .engine] s.dev d
      ∧ holdingEntered { s.dev.part with pfwarn := true } s.dev d := by
  refine ⟨_, (exec_pfwarnAsserted s).trans ?_, holdEnters.settled { s.dev.part with pfwarn := true }⟩
  rw [warn_of_clear hw, holdReact_of_enters (d := { s.dev with part := { s.dev.part with pfwarn := true } }) he]

theorem pfwarn_noted {s : State} (hs : SettledInv s) (h : ¬ s.dev.holdEnters) :
    exec .pfwarnAsserted s = .next (s.withDev { s.dev with part := { s.dev.part with pfwarn := true } }) := by
  refine (exec_pfwarnAsserted s).trans (next_withDev_congr s ?_)
  cases hw : s.dev.part.pfwarn
  · rw [warn_of_clear hw, holdReact_of_notes (d := { s.dev with part := { s.dev.part with pfwarn := true } }) h]
    exact holdCause_settle hs.1 rfl rfl
  · rw [warn_of_set hw, hs.1, ← hw]

theorem pfwarn_stands {s : State} (hs : SettledInv s) (hw : s.dev.part.pfwarn = true) :
    exec .pfwarnAsserted s = .next s := by
  rw [exec_pfwarnAsserted, warn_of_set hw, hs.1]
  rfl

/-- The device with PFWARN negated (R167). -/
def Device.unwarned (d : Device) : Device := { d with part := { d.part with pfwarn := false } }

theorem exec_pfwarnNegated (st : Straps) (s : State) :
    exec (.pfwarnNegated st) s = .next (s.withDev (s.dev.unwarned.restartIfFree st).settle) := rfl

theorem pfwarn_restarts {s : State} (st : Straps) (hh : s.dev.part.state = .held) (hf : s.dev.part.holdFlag = false)
    (hp : s.dev.port.state = .selfRefresh) : ∃ d, exec (.pfwarnNegated st) s = .next (s.withDev d)
      ∧ startBegun .restart st s.dev.unwarned d := by
  refine ⟨_, (exec_pfwarnNegated st s).trans ?_, beginStart_begun s.dev.unwarned .restart st⟩
  rw [restartIfFree_starts (d := s.dev.unwarned) hh rfl hf, beginStart_settle (d := s.dev.unwarned) _ _ (Or.inr hp)]

theorem pfwarn_cleared {s : State} (st : Straps) (hs : SettledInv s)
    (h : s.dev.part.state ≠ .held ∨ s.dev.part.holdFlag = true) :
    exec (.pfwarnNegated st) s = .next (s.withDev s.dev.unwarned) := by
  refine (exec_pfwarnNegated st s).trans (next_withDev_congr s ?_)
  rw [restartIfFree_stays (d := s.dev.unwarned) (h.imp_right Or.inr)]
  exact holdCause_settle hs.1 rfl rfl

/-! ### HOLD and RELEASE -/

/-- A COMMAND frame passes every test, but where FORMAT is refused (R190, R196). -/
theorem command_ok {d : Device} {f : Frame} (ha : frameArrives f 1) (hi : f.item = 0x60)
    (hv : f.word 0 = 2 ∨ f.word 0 = 3) : d.writeResult f = .ok := by
  refine writeResult_good ha (fun k hk => ?_) fun k hk => ?_
  · obtain rfl : k = 0 := by omega
    rw [Nat.add_zero, hi]
    rcases hv with hv | hv <;> rw [hv] <;> rfl
  · obtain rfl : k = 0 := by omega
    rw [Nat.add_zero, hi]
    rcases hv with hv | hv <;> rw [hv] <;> rfl

theorem writes_command {f : Frame} (d : Device) (st : Straps) {v : Word} (hi : f.item = 0x60) (hv : f.word 0 = v) :
    d.writeItems st (f.writes 1) = d.writeCommand st v := by
  rw [writes_one, hi, hv]
  rfl

theorem exec_holdCommand {s : State} {f : Frame} (ht : s.takes f) (hr : f.row = .hold) (ha : frameArrives f 1) :
    exec (.holdCommand f) s = .next (s.withDev (s.dev.takeHold.endFrame f s.dev .ok).settle) := by
  obtain ⟨hi, hv⟩ := (ha.rows (by rw [hr]; decide)).2.2.2.2.1.mp hr
  refine (frameOfRow_next s.dev.part.straps ht (fits_of_row hr ha.1) ha.1).trans (next_withDev_congr s ?_)
  rw [writeFrame_ok (command_ok ha hi (Or.inl hv)) ha.2.1, writes_command _ _ hi hv]
  rfl

theorem exec_releaseCommand {s : State} {f : Frame} (st : Straps) (ht : s.takes f) (hr : f.row = .release)
    (ha : frameArrives f 1) :
    exec (.releaseCommand f st) s = .next (s.withDev ((s.dev.takeRelease st).endFrame f s.dev .ok).settle) := by
  obtain ⟨hi, hv⟩ := (ha.rows (by rw [hr]; decide)).2.2.2.2.2.1.mp hr
  refine (frameOfRow_next st ht (fits_of_row hr ha.1) ha.1).trans (next_withDev_congr s ?_)
  rw [writeFrame_ok (command_ok ha hi (Or.inr hv)) ha.2.1, writes_command _ _ hi hv]
  rfl

/-- The entry to HOLDING does not touch the frame result. -/
theorem holdingEntered.endFrame {part : PartControl} {d e : Device} (h : holdingEntered part d e) (f : Frame)
    (out : Device) (r : FrameResult) : holdingEntered part d (e.endFrame f out r) := h

theorem hold_enters {s : State} {f : Frame} (he : s.dev.holdEnters) (ht : s.takes f) (hr : f.row = .hold)
    (ha : frameArrives f 1) : ∃ d, exec (.holdCommand f) s = .next (s.withDev d)
      ∧ unchangedBut [.host, .contexts, .rollback, .journal, .port, .part, .engine, .mgmt] s.dev d
      ∧ holdingEntered { s.dev.part with holdFlag := true } s.dev d ∧ d.mgmt = (s.dev.endFrame f s.dev .ok).mgmt := by
  have hx := exec_holdCommand ht hr ha
  have hhold : s.dev.takeHold = Device.enterHolding { s.dev with part := { s.dev.part with holdFlag := true } } :=
    holdReact_of_enters (d := { s.dev with part := { s.dev.part with holdFlag := true } }) he
  have hentered := (hhold ▸ enterHolding_entered s.dev { s.dev.part with holdFlag := true } :
    holdingEntered _ s.dev s.dev.takeHold)
  have hd : unchangedBut holdBlocks s.dev s.dev.takeHold := by
    rw [hhold]
    exact (part_frame s.dev _).comp (enterHolding_frame _) (by decide) (by decide)
  obtain ⟨hsettled, hf⟩ := (hentered.endFrame f s.dev .ok).settle
  have hm : s.dev.takeHold.mgmt = s.dev.mgmt := hd .mgmt (by decide)
  refine ⟨_, hx, ?_, hsettled, Eq.trans (hf .mgmt (by decide)) ?_⟩
  · have hall : unchangedBut [.host, .contexts, .rollback, .journal, .port, .part, .mgmt] s.dev
        (s.dev.takeHold.endFrame f s.dev .ok) := hd.comp (endFrame_frame _ _ _ _) (by decide) (by decide)
    exact hall.comp hf (by decide) (by decide)
  · unfold Device.endFrame
    rw [hm]

theorem hold_noted {s : State} {f : Frame} (hs : SettledInv s) (ht : s.takes f) (h : ¬ s.dev.holdEnters)
    (hr : f.row = .hold) (ha : frameArrives f 1) : exec (.holdCommand f) s = .next (s.withDev
      ({ s.dev with part := { s.dev.part with holdFlag := true } }.endFrame f s.dev .ok)) := by
  refine (exec_holdCommand ht hr ha).trans (next_withDev_congr s ?_)
  have hhold : s.dev.takeHold = { s.dev with part := { s.dev.part with holdFlag := true } } :=
    holdReact_of_notes (d := { s.dev with part := { s.dev.part with holdFlag := true } }) h
  rw [hhold]
  exact endFrame_settle (d := { s.dev with part := { s.dev.part with holdFlag := true } })
    (holdCause_settle hs.1 rfl rfl) f s.dev .ok

/-- The device with the hold flag cleared (R167). -/
def Device.unheld (d : Device) : Device := { d with part := { d.part with holdFlag := false } }

theorem release_restarts {s : State} {f : Frame} (st : Straps) (ht : s.takes f) (hr : f.row = .release)
    (ha : frameArrives f 1) (hh : s.dev.part.state = .held) (hw : s.dev.part.pfwarn = false)
    (hp : s.dev.port.state = .selfRefresh) : ∃ d,
      exec (.releaseCommand f st) s = .next (s.withDev (d.endFrame f s.dev .ok)) ∧ startBegun .restart st s.dev.unheld d := by
  refine ⟨_, (exec_releaseCommand st ht hr ha).trans (next_withDev_congr s ?_),
    beginStart_begun s.dev.unheld .restart st⟩
  have hstart : s.dev.takeRelease st = s.dev.unheld.beginStart .restart st :=
    restartIfFree_starts (d := s.dev.unheld) hh hw rfl
  rw [hstart]
  exact endFrame_settle (beginStart_settle (d := s.dev.unheld) _ _ (Or.inr hp)) f s.dev .ok

theorem release_cleared {s : State} {f : Frame} (st : Straps) (ht : s.takes f) (hr : f.row = .release)
    (ha : frameArrives f 1) (hs : SettledInv s) (h : s.dev.part.state ≠ .held ∨ s.dev.part.pfwarn = true) :
    exec (.releaseCommand f st) s = .next (s.withDev (s.dev.unheld.endFrame f s.dev .ok)) := by
  refine (exec_releaseCommand st ht hr ha).trans (next_withDev_congr s ?_)
  have hstays : s.dev.takeRelease st = s.dev.unheld :=
    restartIfFree_stays (d := s.dev.unheld) (h.imp_right Or.inl)
  rw [hstays]
  exact endFrame_settle (d := s.dev.unheld) (holdCause_settle hs.1 rfl rfl) f s.dev .ok

/-- Settles O54: a cause enters HOLDING by `Device.holdReact`, and its end starts by `Device.restartIfFree`. -/
theorem holdCausesAct : Obligations.HoldCausesAct := by
  refine ⟨fun s he hw => pfwarn_enters he hw, fun s f he ht hr ha => hold_enters he ht hr ha,
    fun s hs h => pfwarn_noted hs (not_holdEnters h), fun s hs hw => pfwarn_stands hs hw,
    fun s f hs ht h hr ha => hold_noted hs ht (not_holdEnters ?_) hr ha, fun s st hh hf hp => pfwarn_restarts st hh hf hp,
    fun s st hs h => pfwarn_cleared st hs h,
    fun s f st ht hr ha => ⟨fun hh hw hp => release_restarts st ht hr ha hh hw hp,
      fun hs h => release_cleared st ht hr ha hs h⟩⟩
  tauto

end Sys2Proof.Machine
end

section
/-! What a masked line write and a cut one leave of each byte (R150, R160). -/

namespace Sys2Proof.Machine

theorem writeBytes_cons (m : Memory) (line : Nat) (takes : Nat → Bool) (b : Nat × Byte) (bs : List (Nat × Byte)) :
    m.writeBytes line takes (b :: bs)
      = (if takes b.1 then m.write (line + b.1) b.2 else m).writeBytes line takes bs := rfl

/-! ### A line write -/

/-- A byte that is written, and written alike wherever it is written, holds what is written. -/
theorem read_writeBytes_same (line i : Nat) (v : Byte) : ∀ (bs : List (Nat × Byte)) (m : Memory), m.wf = true →
    (∀ b ∈ bs, b.1 = i → b.2 = v) → (∃ b ∈ bs, b.1 = i) →
    (m.writeBytes line (fun _ => true) bs).read (line + i) = v := by
  intro bs
  induction bs with
  | nil => exact fun m _ _ h => absurd h (by simp)
  | cons c bs ih =>
    intro m hm hv hex
    rw [writeBytes_cons, if_pos rfl]
    by_cases hlater : ∃ b ∈ bs, b.1 = i
    · exact ih _ (m.write_wf _ _ hm) (fun b hb => hv b (List.mem_cons_of_mem _ hb)) hlater
    · obtain ⟨b, hb, hbi⟩ := hex
      obtain rfl : b = c := (List.mem_cons.mp hb).resolve_right fun k => hlater ⟨b, k, hbi⟩
      rw [Memory.read_writeBytes_other _ _ _ _ _ fun x hx e => hlater ⟨x, hx, (Nat.add_left_cancel e).symm⟩,
        m.read_write _ _ _ hm, if_pos (by rw [hbi]), hv b hb hbi]

theorem mem_bytes {w : LineWrite} {b : Nat × Byte} : b ∈ w.bytes ↔ ∃ x ∈ w.words, ∃ k : Fin 4,
    x.lanes.getLsbD k.val = true ∧ b = (4 * x.pos.val + k.val, x.data.extractLsb' (8 * k.val) 8) := by
  simp only [LineWrite.bytes, List.mem_flatMap, List.mem_map, List.mem_filter, List.mem_range]
  constructor
  · rintro ⟨x, hx, k, ⟨hk, hl⟩, rfl⟩
    exact ⟨x, hx, ⟨k, hk⟩, hl, rfl⟩
  · rintro ⟨x, hx, k, hl, rfl⟩
    exact ⟨x, hx, k.val, ⟨k.isLt, hl⟩, rfl⟩

/-- With one write per word, each lane of the line has one write. -/
theorem bytes_unique {w : LineWrite} (hn : (w.words.map (·.pos)).Nodup) {x : WordWrite} (hx : x ∈ w.words) (k : Fin 4)
    {b : Nat × Byte} (hb : b ∈ w.bytes) (he : b.1 = 4 * x.pos.val + k.val) :
    b.2 = x.data.extractLsb' (8 * k.val) 8 := by
  obtain ⟨y, hy, j, _, rfl⟩ := mem_bytes.mp hb
  have hpos : y.pos = x.pos := Fin.ext (by omega)
  have hk : j = k := Fin.ext (by omega)
  rw [List.inj_on_of_nodup_map hn hy hx hpos, hk]

/-- Settles O14: the bytes written are the lanes carried, each once. -/
theorem lineWriteSetsItsLanes : Obligations.LineWriteSetsItsLanes := by
  refine fun m w hm hn => ⟨fun x hx k hl => ?_, fun a ha => ?_⟩
  · rw [Nat.add_assoc]
    exact read_writeBytes_same _ _ _ _ m hm (fun b hb he => bytes_unique hn hx k hb he)
      ⟨_, mem_bytes.mpr ⟨x, hx, k, hl, rfl⟩, rfl⟩
  · refine m.read_writeBytes_other _ _ _ _ fun b hb => ?_
    obtain ⟨x, hx, k, hl, rfl⟩ := mem_bytes.mp hb
    rw [← Nat.add_assoc]
    exact ha x hx k hl

/-! ### A cut write -/

/-- A byte is as it was, or as one of the writes has it. -/
def byteMixed (m x : Memory) (line : Nat) (bs : List (Nat × Byte)) (a : Nat) : Prop :=
  x.read a = m.read a ∨ ∃ b ∈ bs, a = line + b.1 ∧ x.read a = b.2

theorem byteMixed.cons {m x : Memory} {line a : Nat} {bs : List (Nat × Byte)} (h : byteMixed m x line bs a)
    (b : Nat × Byte) : byteMixed m x line (b :: bs) a :=
  h.imp_right fun ⟨c, hc, k⟩ => ⟨c, List.mem_cons_of_mem _ hc, k⟩

theorem byteMixed.cons_write {m x : Memory} {line a : Nat} {bs : List (Nat × Byte)} (b : Nat × Byte) (hm : m.wf = true)
    (h : byteMixed (m.write (line + b.1) b.2) x line bs a) : byteMixed m x line (b :: bs) a := by
  rcases h with h | ⟨c, hc, k⟩
  · rw [m.read_write _ _ _ hm] at h
    split at h
    · next ha => exact Or.inr ⟨b, List.mem_cons_self, ha, h⟩
    · exact Or.inl h
  · exact Or.inr ⟨c, List.mem_cons_of_mem _ hc, k⟩

theorem writeBytes_mixed (line : Nat) (takes : Nat → Bool) (a : Nat) : ∀ (bs : List (Nat × Byte)) (m : Memory),
    m.wf = true → byteMixed m (m.writeBytes line takes bs) line bs a := by
  intro bs
  induction bs with
  | nil => exact fun m _ => Or.inl rfl
  | cons b bs ih =>
    intro m hm
    rw [writeBytes_cons]
    split
    · exact (ih _ (m.write_wf _ _ hm)).cons_write b hm
    · exact (ih m hm).cons b

theorem mixAvoiding_mixed (bad : Memory → Bool) (line a : Nat) : ∀ (bs : List (Nat × Byte)) (m x : Memory),
    m.wf = true → Memory.mixAvoiding bad line bs m = some x → byteMixed m x line bs a := by
  intro bs
  induction bs with
  | nil =>
    intro m x _ h
    unfold Memory.mixAvoiding at h
    split at h
    · exact absurd h nofun
    · rw [Option.some.inj h]
      exact Or.inl rfl
  | cons b bs ih =>
    intro m x hm h
    unfold Memory.mixAvoiding at h
    split at h
    · next y hy =>
      obtain rfl := Option.some.inj h
      exact (ih m y hm hy).cons b
    · exact (ih _ x (m.write_wf _ _ hm) h).cons_write b hm

/-- A cut write leaves of each byte the old or the new contents (R160). -/
theorem cutAvoiding_mixed {m : Memory} (hm : m.wf = true) (n : Nat) (w : LineWrite) (bad : Memory → Bool) (a : Nat) :
    byteMixed m (m.cutAvoiding n w bad) w.line w.bytes a := by
  have hcut : byteMixed m (m.cutLine n w) w.line w.bytes a := writeBytes_mixed _ _ _ _ m hm
  unfold Memory.cutAvoiding
  extract_lets x changed
  split
  · cases hx : Memory.mixAvoiding bad w.line changed m with
    | none => exact hcut
    | some y =>
      exact (mixAvoiding_mixed bad _ a _ m y hm hx).imp_right fun ⟨b, hb, k⟩ => ⟨b, List.mem_of_mem_filter hb, k⟩
  · exact hcut

/-- A cut write leaves nothing bad where the DRAM was not bad before it: all old bytes are a mix. -/
theorem cutAvoiding_good_of_old {m : Memory} (n : Nat) (w : LineWrite) {bad : Memory → Bool} (h : bad m = false) :
    bad (m.cutAvoiding n w bad) = false := by
  unfold Memory.cutAvoiding
  extract_lets x changed
  split
  · have none_taken : ∀ bs : List (Nat × Byte), m.writeBytes w.line (fun _ => false) bs = m := fun bs => by
      induction bs with
      | nil => rfl
      | cons b bs ih => exact ih
    have hs := Memory.mixAvoiding_isSome bad w.line (fun _ => false) changed m (by rwa [none_taken])
    obtain ⟨y, hy⟩ := Option.isSome_iff_exists.mp hs
    rw [hy]
    exact Memory.mixAvoiding_good bad w.line changed m y hy
  · next hx => exact Bool.eq_false_iff.mpr hx

end Sys2Proof.Machine
end

section
/-! RST and the coming and going of power (R160, R172, R173). -/

namespace Sys2Proof.Machine

/-! ### What RST leaves of the blocks -/

/-- RST, with the line noted (R172). -/
def Device.resetNow (d : Device) : Device := Device.stopAll { d with part := { d.part with rst := true } }

section
variable {d : Device}

theorem cutAccess_ctx (d : Device) (c : Ctx) : d.cutAccess.ctx c = d.ctx c :=
  congrArg (·[c]) (cutAccess_frame d .contexts (by decide))

theorem cutHost_waiting {w : Waiting} (h : d.host.mode = .waiting w) : d.cutHost =
    { d.clearWaiter w.cond with host := { (d.clearWaiter w.cond).host with mode := .stopped, answer := none } } := by
  unfold Device.cutHost
  rw [h]

theorem cutHost_not_waiting (h : ∀ w, d.host.mode ≠ .waiting w) :
    d.cutHost = { d with host := { d.host with mode := .stopped, answer := none } } := by
  unfold Device.cutHost
  split
  · next w hw => exact absurd hw (h w)
  · rfl

theorem cutHost_stopped (d : Device) (c : Ctx) : d.cutHost.stopLeases.ctx c = d.stoppedContext c := by
  by_cases h : ∃ w, d.host.mode = .waiting w
  · obtain ⟨w, hw⟩ := h
    rw [cutHost_waiting hw, ← clearWaiter_stopped hw, stopLeases_ctx, stopLeases_ctx]
    rfl
  · have hno := not_exists.mp h
    rw [cutHost_not_waiting hno, ← stopLeases_stopped hno, stopLeases_ctx, stopLeases_ctx]
    rfl

/-- The contexts as RST leaves them are those that the entry to HOLDING leaves (R63). -/
theorem stopAll_ctx (d : Device) (c : Ctx) : d.stopAll.ctx c = d.stoppedContext c := by
  have hx : d.stopAll.ctx c = d.cutAccess.cutHost.stopLeases.ctx c := rfl
  rw [hx, cutHost_stopped]
  unfold Device.stoppedContext Device.awaitedCommit
  rw [cutAccess_ctx, show d.cutAccess.host = d.host from cutAccess_frame d .host (by decide)]

theorem cutHost_host (d : Device) : d.cutHost.host = { d.host with mode := .stopped, answer := none } := by
  by_cases h : ∃ w, d.host.mode = .waiting w
  · obtain ⟨w, hw⟩ := h
    rw [cutHost_waiting hw, show (d.clearWaiter w.cond).host = d.host from clearWaiter_frame d w.cond .host (by decide)]
  · rw [cutHost_not_waiting (not_exists.mp h)]

/-- The blocks before they stop: the access and the cycle in hand cut, the leases stopped. -/
theorem stopAll_before (d : Device) :
    unchangedBut [.dram, .drawn, .contexts, .host] d d.cutAccess.cutHost.stopLeases :=
  ((cutAccess_frame d).comp (cutHost_frame _) (by decide) (by decide)).trans
    ((stopLeases_frame _).mono (by decide))

theorem stopAll_part (d : Device) :
    d.stopAll.part = { d.part with state := .stopped, phase := none, scan := none } :=
  congrArg (fun p : PartControl => { p with state := .stopped, phase := none, scan := none })
    (stopAll_before d .part (by decide))

theorem stopAll_host (d : Device) : d.stopAll.host = { d.host with mode := .stopped, answer := none } := by
  have hx : d.stopAll.host = d.cutAccess.cutHost.host := rfl
  rw [hx, cutHost_host, show d.cutAccess.host = d.host from cutAccess_frame d .host (by decide)]

theorem stopAll_rollback (d : Device) : d.stopAll.rollback = { d.rollback with state := .stopped, walk := none } :=
  congrArg (fun r : Rollback => { r with state := .stopped, walk := none })
    (stopAll_before d .rollback (by decide))

theorem stopAll_mgmt (d : Device) : d.stopAll.mgmt = { d.mgmt with frame := .stopped, current := none } :=
  congrArg (fun m : Management => { m with frame := .stopped, current := none })
    (stopAll_before d .mgmt (by decide))

theorem afterReset_eq (p : PortState) : p.afterReset = if p = .bringingUp ∨ p = .unconfigured then .unconfigured
    else .selfRefresh := by cases p <;> rfl

theorem stopAll_port (d : Device) : d.stopAll.port = { d.port with
    state := if d.port.state = .bringingUp ∨ d.port.state = .unconfigured then .unconfigured else .selfRefresh
    banks := Vector.replicate 8 none, waiting := [], inFlight := none
    timer := { d.port.timer with running := false } } := by
  have hx : d.stopAll.port = d.port.reset := congrArg MemPort.reset (stopAll_before d .port (by decide))
  rw [hx, ← afterReset_eq]
  rfl

theorem stopAll_lines (d : Device) : d.stopAll.alertLine = false ∧ d.stopAll.readyLine = false := by
  unfold Device.alertLine Device.readyLine
  simp

/-! ### What RST leaves of the DRAM -/

theorem cutAccess_of_read (h : ∀ u w, d.port.inFlight ≠ some (.write u w)) : d.stopAll.dram = d.dram := by
  rw [stopAll_dram]
  unfold Device.cutAccess
  split
  · next u w hf => exact absurd hf (h u w)
  · rfl

theorem cutAccess_of_write {u : WriteUse} {w : LineWrite} (h : d.port.inFlight = some (.write u w)) :
    d.stopAll.dram = d.dram.cutAvoiding d.drawn w (d.cutExcludes u w) := by
  rw [stopAll_dram]
  unfold Device.cutAccess
  rw [h]

/-- A record whose write is cut does not stand complete, where the free values may leave it so (log 34). -/
theorem cut_append {who : Appender} {w : LineWrite} {a : Append}
    (hm : d.dram.wf = true) (hf : d.port.inFlight = some (.write (.append who) w)) (ha : d.journal.append = some a)
    (hn : (w.bytes.map (·.1)).Nodup)
    (hex : ∃ takes, (d.dram.writeBytes w.line takes w.bytes).recordStands d.part.straps a.pos a.seq = false) :
    d.stopAll.dram.recordStands d.part.straps a.pos a.seq = false := by
  have hbad : d.cutExcludes (.append who) w = fun x => x.recordStands d.part.straps a.pos a.seq := by
    funext x
    unfold Device.cutExcludes
    rw [ha]
  obtain ⟨takes, ht⟩ := hex
  rw [cutAccess_of_write hf, hbad]
  exact Memory.cutAvoiding_good d.dram d.drawn w (fun x => x.recordStands d.part.straps a.pos a.seq) takes hm hn ht

/-- An anchor line whose write is cut is as before, as written, or no valid anchor (log 34). -/
theorem cut_anchor {forced : Bool} {w : LineWrite} (hf : d.port.inFlight = some (.write (.anchor forced) w)) :
    let ws := d.stopAll.dram.readLine w.line
    ws = d.dram.readLine w.line ∨ ws = (d.dram.writeLine w).readLine w.line ∨ anchorCondition d.ring ws ≠ .valid := by
  intro ws
  have hgood : d.cutExcludes (.anchor forced) w d.stopAll.dram = false := by
    rw [cutAccess_of_write hf]
    exact cutAvoiding_good_of_old _ _ (by simp [Device.cutExcludes])
  unfold Device.cutExcludes at hgood
  simp only [Bool.and_eq_false_iff, decide_eq_false_iff_not, not_not] at hgood
  tauto

end

/-! ### RST as commands -/

theorem exec_rstAsserted {s : State} (h : s.dev.part.rst = false) :
    exec .rstAsserted s = .next (s.withDev s.dev.resetNow) := if_neg (by simp [h])

theorem exec_rstStands {s : State} (h : s.dev.part.rst = true) : exec .rstAsserted s = .next s := if_pos h

/-- The device with RST negated (R172). -/
def Device.unreset (d : Device) : Device := { d with part := { d.part with rst := false } }

theorem exec_rstReleased {s : State} (st : Straps) (h : s.dev.part.rst = true) :
    exec (.rstReleased st) s = .next (s.withDev (if s.dev.part.powered
      then s.dev.unreset.beginStart (if s.dev.part.broughtUp then .rst else .powerOn) st else s.dev.unreset)) :=
  next_withDev_congr s (if_pos h)

theorem anchorCondition_valid (ring : Nat) (ws : List Word) : anchorCondition ring ws = .valid
    ↔ ws.getD 0 0 = 0x5A3C0A17 ∧ (ws.getD 7 0).extractLsb' 0 8 = crc8 ((ws.take 7).flatMap wordBytes)
      ∧ (ws.getD 1 0).toNat = ring ∧ (ws.getD 2 0).toNat < ring := by
  unfold anchorCondition
  rw [show Config.anchorSignature = 0x5A3C0A17 from rfl]
  split_ifs <;> simp_all

/-- Settles O55: RST is `Device.stopAll`, and the cut leaves the DRAM no worse than R160 allows. -/
theorem resetLine : Obligations.ResetLine := by
  refine ⟨fun s hr => ?_, fun s hr => exec_rstStands hr, ?_⟩
  · let x : Device := { s.dev with part := { s.dev.part with rst := true } }
    refine ⟨_, exec_rstAsserted hr, ?_, stopAll_part x, stopAll_host x, rfl, stopAll_rollback x, stopAll_mgmt x,
      (stopAll_lines x).1, (stopAll_lines x).2, stopAll_ctx x, stopAll_port x, cutAccess_of_read (d := x), ?_, ?_, ?_⟩
    · exact (part_frame s.dev _).comp (stopAll_frame x) (by decide) (by decide)
    · intro u w hm hf a
      rw [show s.dev.resetNow.dram = _ from cutAccess_of_write (d := x) hf]
      exact cutAvoiding_mixed hm _ w _ a
    · intro who w a hm hf ha hn st hex
      exact cut_append (d := x) hm hf ha hn hex
    · intro forced w hf ws
      exact (cut_anchor (d := x) hf).imp_right (Or.imp_right (mt (anchorCondition_valid _ _).mpr))
  · intro s st d
    refine ⟨fun hr hp => ⟨_, (exec_rstReleased st hr).trans (next_withDev_congr s (if_pos hp)),
      beginStart_begun d _ st⟩, fun hr hp => (exec_rstReleased st hr).trans (next_withDev_congr s (if_neg (by simp [hp]))),
      fun hr => next_withDev_congr (d := if s.dev.part.rst then s.dev.releaseRst st else s.dev) s (if_neg (by simp [hr]))⟩

/-! ### Power -/

theorem exec_powerOn_again {s : State} (st : Straps) (h : s.dev.part.powered = true) :
    exec (.powerOnComplete st) s = .refused .eventCannotOccur := if_pos h

/-- The device with power-on complete (R173). -/
def Device.poweredOn (d : Device) : Device := { d with part := { d.part with powered := true } }

theorem exec_powerOnComplete {s : State} (st : Straps) (h : s.dev.part.powered = false) :
    exec (.powerOnComplete st) s = .next (s.withDev
      (if s.dev.part.rst then s.dev.poweredOn else s.dev.poweredOn.beginStart .powerOn st)) := if_neg (by simp [h])

theorem afterPowerLoss_part (d : Device) : d.afterPowerLoss.part = d.part := by
  unfold Device.afterPowerLoss
  split
  · rfl
  · extract_lets d1
    split
    · exact cutAccess_frame d1 .part (by decide)
    · rfl

/-- A loss of power outside self-refresh draws a free value (log 13). -/
theorem afterPowerLoss_drawn {d : Device} (h : d.port.state ≠ .selfRefresh) : d.drawn < d.afterPowerLoss.drawn := by
  unfold Device.afterPowerLoss
  rw [if_neg h]
  extract_lets d1
  split
  · unfold Device.cutAccess
    split
    · exact (Nat.lt_succ_self d.drawn).trans_le (Nat.le_add_right _ _)
    · exact Nat.lt_succ_self d.drawn
  · exact Nat.lt_succ_self d.drawn

/-- Settles O56: power comes once and starts, and its loss leaves `Device.unstarted` over what is left of the DRAM. -/
theorem powerComesAndGoes : Obligations.PowerComesAndGoes := by
  refine ⟨?_, fun s => ⟨s.dev.afterPowerLoss.dram, s.dev.afterPowerLoss.drawn, ?_, fun h => ?_, afterPowerLoss_drawn⟩⟩
  · intro s st d
    exact ⟨exec_powerOn_again st,
      fun hp hr => (exec_powerOnComplete st hp).trans (next_withDev_congr s (if_pos hr)),
      fun hp hr => ⟨_, (exec_powerOnComplete st hp).trans (next_withDev_congr s (if_neg (by simp [hr]))),
        beginStart_begun d .powerOn st⟩⟩
  · rw [← afterPowerLoss_part s.dev]
    rfl
  · have hx : s.dev.afterPowerLoss = s.dev := if_pos h
    rw [hx]
    exact ⟨rfl, rfl⟩

end Sys2Proof.Machine
end

section
/-! The region tables: writes of the pending one, APPLY, and what changes the active one (R6-R10, R13). -/

namespace Sys2Proof.Machine

/-! ### Items of the pending table -/

/-- A change of the region map alone leaves nothing more to settle. -/
theorem regions_settle {d e : Device} (h : d.settle = d) (hf : unchangedBut [.regions] d e) : e.settle = e := by
  have hpart : e.part = d.part := hf .part (by decide)
  have hhost : e.host = d.host := hf .host (by decide)
  exact settle_congr h (by rw [hpart]) (by rw [hpart]) (hf .rollback (by decide)) (hf .journal (by decide))
    (by rw [hhost]) (hf .queue (by decide)) (hf .engine (by decide)) (hf .port (by decide))

/-- The entry that an item of the pending table belongs to, and which of its two it is (R194). -/
theorem writePending_entry (d : Device) (v : Word) {n : Nat} (hn : 0x20 ≤ n ∧ n ≤ 0x2F) (i : Fin 8) :
    let e := (d.writePending n v).regions.pendingTable[i]
    let e0 := d.regions.pendingTable[i]
    (n ≠ 0x20 + 2 * i.val → e.base = e0.base ∧ e.size = e0.size)
      ∧ (n ≠ 0x21 + 2 * i.val → e.mode = e0.mode ∧ e.view = e0.view)
      ∧ (n = 0x20 + 2 * i.val → e.base = v.extractLsb' 16 16 ∧ e.size = v.extractLsb' 0 16)
      ∧ (n = 0x21 + 2 * i.val → e.mode = v.extractLsb' 0 4 ∧ e.view = v.extractLsb' 8 2) := by
  intro e e0
  let k : Fin 8 := Fin.ofNat 8 ((n - 0x20) / 2)
  let x := d.regions.pendingTable[k]
  let x1 : RegionEntry := if n % 2 = 0 then { x with base := v.extractLsb' 16 16, size := v.extractLsb' 0 16 }
    else { x with mode := v.extractLsb' 0 4, view := v.extractLsb' 8 2 }
  have he : e = (d.regions.pendingTable.set k.val x1 k.isLt)[i.val] := rfl
  have hk : k.val = (n - 0x20) / 2 := Nat.mod_eq_of_lt (by omega)
  by_cases hki : k.val = i.val
  · have hx : x = e0 := congrArg (d.regions.pendingTable[·]) (Fin.ext hki)
    have he1 : e = x1 := by rw [he, Vector.getElem_set, if_pos hki]
    by_cases h2 : n % 2 = 0
    · have hx1 : x1 = { x with base := v.extractLsb' 16 16, size := v.extractLsb' 0 16 } := if_pos h2
      rw [he1, hx1, ← hx]
      exact ⟨fun h => absurd h (by omega), fun _ => ⟨rfl, rfl⟩, fun _ => ⟨rfl, rfl⟩, fun h => absurd h (by omega)⟩
    · have hx1 : x1 = { x with mode := v.extractLsb' 0 4, view := v.extractLsb' 8 2 } := if_neg h2
      rw [he1, hx1, ← hx]
      exact ⟨fun _ => ⟨rfl, rfl⟩, fun h => absurd h (by omega), fun h => absurd h (by omega), fun _ => ⟨rfl, rfl⟩⟩
  · have he0 : e = e0 := by rw [he, Vector.getElem_set, if_neg hki]; rfl
    rw [he0]
    exact ⟨fun _ => ⟨rfl, rfl⟩, fun _ => ⟨rfl, rfl⟩, fun h => absurd h (by omega), fun h => absurd h (by omega)⟩

/-- The first `w` words of the frame are stored in `t`, over the pending table of `d`. -/
def pendingStored (d : Device) (f : Frame) (w : Nat) (t : Vector RegionEntry 8) : Prop :=
  (∀ i : Fin 8, (∀ k, k < w → f.item + k ≠ 0x20 + 2 * i.val) →
      (t[i]).base = (d.regions.pendingTable[i]).base ∧ (t[i]).size = (d.regions.pendingTable[i]).size)
    ∧ (∀ i : Fin 8, (∀ k, k < w → f.item + k ≠ 0x21 + 2 * i.val) →
      (t[i]).mode = (d.regions.pendingTable[i]).mode ∧ (t[i]).view = (d.regions.pendingTable[i]).view)
    ∧ ∀ (i : Fin 8) (k : Nat), k < w →
      (f.item + k = 0x20 + 2 * i.val → (t[i]).base = (f.word k).extractLsb' 16 16
        ∧ (t[i]).size = (f.word k).extractLsb' 0 16)
      ∧ (f.item + k = 0x21 + 2 * i.val → (t[i]).mode = (f.word k).extractLsb' 0 4
        ∧ (t[i]).view = (f.word k).extractLsb' 8 2)

theorem writes_succ (f : Frame) (w : Nat) : f.writes (w + 1) = f.writes w ++ [(f.item + w, f.word w)] := by
  simp [Frame.writes, List.range_succ]

theorem writeItems_append (d : Device) (st : Straps) (a b : List (Nat × Word)) :
    d.writeItems st (a ++ b) = (d.writeItems st a).writeItems st b := List.foldl_append

theorem writeItems_pendingStored (d : Device) (st : Straps) (f : Frame) (h : 0x20 ≤ f.item) : ∀ w, f.item + w ≤ 0x30 →
    pendingStored d f w (d.writeItems st (f.writes w)).regions.pendingTable := by
  intro w
  induction w with
  | zero => exact fun _ => ⟨fun _ _ => ⟨rfl, rfl⟩, fun _ _ => ⟨rfl, rfl⟩, fun _ k hk => absurd hk (Nat.not_lt_zero k)⟩
  | succ w ih =>
    intro hw
    obtain ⟨hbase, hmode, hstored⟩ := ih (by omega)
    have hn : 0x20 ≤ f.item + w ∧ f.item + w ≤ 0x2F := by omega
    rw [writes_succ, writeItems_append]
    generalize d.writeItems st (f.writes w) = x at hbase hmode hstored
    rw [show x.writeItems st [(f.item + w, f.word w)] = x.writePending (f.item + w) (f.word w) from
      writeItem_pending x st (f.word w) hn]
    have entry := fun i => writePending_entry x (f.word w) hn i
    refine ⟨fun i hi => ?_, fun i hi => ?_, fun i k hk => ?_⟩
    · obtain ⟨hkept, _⟩ := entry i
      obtain ⟨h1, h2⟩ := hkept (hi w (Nat.lt_succ_self w))
      obtain ⟨h3, h4⟩ := hbase i fun k hk => hi k (Nat.lt_succ_of_lt hk)
      exact ⟨h1.trans h3, h2.trans h4⟩
    · obtain ⟨_, hkept, _⟩ := entry i
      obtain ⟨h1, h2⟩ := hkept (hi w (Nat.lt_succ_self w))
      obtain ⟨h3, h4⟩ := hmode i fun k hk => hi k (Nat.lt_succ_of_lt hk)
      exact ⟨h1.trans h3, h2.trans h4⟩
    · obtain ⟨hbasekept, hmodekept, hbaseset, hmodeset⟩ := entry i
      rcases Nat.lt_succ_iff_lt_or_eq.mp hk with hk | rfl
      · obtain ⟨hb, hm⟩ := hstored i k hk
        refine ⟨fun e => ?_, fun e => ?_⟩
        · obtain ⟨h1, h2⟩ := hbasekept (by omega)
          obtain ⟨h3, h4⟩ := hb e
          exact ⟨h1.trans h3, h2.trans h4⟩
        · obtain ⟨h1, h2⟩ := hmodekept (by omega)
          obtain ⟨h3, h4⟩ := hm e
          exact ⟨h1.trans h3, h2.trans h4⟩
      · exact ⟨hbaseset, hmodeset⟩

theorem writeRefused_pending (d : Device) (v : Word) {n : Nat} (h : 0x20 ≤ n ∧ n ≤ 0x2F) :
    d.writeRefused n v = d.regions.applyWaiting := if_pos h

theorem writeGood_pending (v : Word) {n : Nat} (h : 0x20 ≤ n ∧ n ≤ 0x2F) : writeGood n v = true := if_pos h

theorem exec_pendingTableWrite {s : State} {f : Frame} {w : Nat} (ht : s.takes f) (hr : f.row = .pendingTable)
    (ha : frameArrives f w) :
    exec (.pendingTableWrite f) s = .next (s.withDev (s.dev.writeFrame f s.dev.part.straps)) :=
  frameOfRow_next s.dev.part.straps ht (fits_of_row hr ha.1) ha.1

/-- Settles O16: each item is stored in its half of its entry. -/
theorem pendingTableWritten : Obligations.PendingTableWritten := by
  intro s f w ht hset hr ha hw
  have hitem := (ha.rows (by rw [hr]; decide)).1.mp hr
  have hpos := ha.words_pos
  have hin : ∀ k < w, 0x20 ≤ f.item + k ∧ f.item + k ≤ 0x2F := fun k hk => by omega
  have hx := exec_pendingTableWrite ht hr ha
  refine ⟨fun hwait => hx.trans (next_withDev_congr s ?_), fun hwait => ?_⟩
  · have hres : s.dev.writeResult f = .refused := writeResult_refused ha (fun k hk => writeGood_pending _ (hin k hk))
      (by omega : 0 < w) ((writeRefused_pending _ _ (hin 0 (by omega))).trans hwait)
    exact writeFrame_discards hset.1 hres nofun nofun _
  · have hres : s.dev.writeResult f = .ok := writeResult_good ha (fun k hk => writeGood_pending _ (hin k hk))
      fun k hk => (writeRefused_pending _ _ (hin k hk)).trans hwait
    have hpending : ∀ p ∈ f.writes w, 0x20 ≤ p.1 ∧ p.1 ≤ 0x2F := fun p hp => by
      obtain ⟨k, hk, rfl⟩ := mem_writes.mp hp
      exact hin k hk
    have hf := writeItems_pending_frame hpending s.dev s.dev.part.straps
    have hregions := writeItems_pending_active hpending s.dev s.dev.part.straps
    have hstored := writeItems_pendingStored s.dev s.dev.part.straps f hitem.1 w hw
    have hframe := writeFrame_ok hres ha.2.1 s.dev.part.straps
    generalize s.dev.writeItems s.dev.part.straps (f.writes w) = x at hf hregions hstored hframe
    rw [endFrame_settle (regions_settle hset.1 hf)] at hframe
    refine ⟨_, hx.trans (next_withDev_congr s hframe), hf.comp (endFrame_frame _ _ _ _) (by decide) (by decide), ?_,
      hregions, hstored⟩
    have hm : x.mgmt = s.dev.mgmt := hf .mgmt (by decide)
    unfold Device.endFrame
    rw [hm]

/-! ### The tests of APPLY -/

theorem named_iff (e : RegionEntry) : e.named = true ↔ e.mode.toNat ≤ 3 ∧ e.view.toNat ≤ 1 := by
  have hm : ∀ m : BitVec 4, (regionModeOf m).isSome = true ↔ m.toNat ≤ 3 := by decide
  have hv : ∀ v : BitVec 2, (readViewOf v).isSome = true ↔ v.toNat ≤ 1 := by decide
  unfold RegionEntry.named
  rw [Bool.and_eq_true, hm, hv]

/-- An entry that fails a test of R8 that concerns it alone. -/
def RegionEntry.faulty (e : RegionEntry) (st : Straps) : Prop :=
  e.size ≠ 0 ∧ (3 < e.mode.toNat ∨ 1 < e.view.toNat ∨ 65536 < e.base.toNat + e.size.toNat
    ∨ capacity st < 65536 * (e.base.toNat + e.size.toNat) ∨ journalBase st < 65536 * (e.base.toNat + e.size.toNat))

theorem valid_iff (st : Straps) (e : RegionEntry) : e.valid st = true ↔ ¬ e.faulty st := by
  unfold RegionEntry.valid RegionEntry.faulty RegionEntry.used RegionEntry.limit
  simp only [Bool.or_eq_true, Bool.and_eq_true, Bool.not_eq_true', decide_eq_false_iff_not, decide_eq_true_eq, named_iff,
    not_and_or, not_or, not_lt, not_not]
  refine or_congr Iff.rfl ?_
  generalize e.base.toNat + e.size.toNat = l
  rw [Nat.le_div_iff_mul_le (by decide), Nat.le_div_iff_mul_le (by decide), Nat.mul_comm l]
  tauto

theorem overlaps_iff (a b : RegionEntry) : a.overlaps b = true ↔ ∃ u, a.covers u = true ∧ b.covers u = true := by
  unfold RegionEntry.overlaps RegionEntry.covers
  simp only [Bool.and_eq_true, decide_eq_true_eq]
  constructor
  · rintro ⟨⟨⟨ha, hb⟩, h1⟩, h2⟩
    have hpos : ∀ x : RegionEntry, x.used = true → x.base.toNat < x.limit := fun x hx => by
      have hne : x.size ≠ 0 := of_decide_eq_true hx
      have : x.size.toNat ≠ 0 := fun k => hne (BitVec.eq_of_toNat_eq k)
      unfold RegionEntry.limit
      omega
    have ha' := hpos a ha
    have hb' := hpos b hb
    exact ⟨max a.base.toNat b.base.toNat, ⟨⟨ha, by omega⟩, by omega⟩, ⟨hb, by omega⟩, by omega⟩
  · rintro ⟨u, ⟨⟨ha, h1⟩, h2⟩, ⟨hb, h3⟩, h4⟩
    exact ⟨⟨⟨ha, hb⟩, by omega⟩, by omega⟩

theorem noOverlap_iff (es : List RegionEntry) : noOverlap es = true ↔ es.Pairwise fun a b => a.overlaps b = false := by
  induction es with
  | nil => simp [noOverlap]
  | cons e es ih =>
    rw [noOverlap, Bool.and_eq_true, ih, List.pairwise_cons, List.all_eq_true]
    simp only [Bool.not_eq_true']

theorem vector_pairwise_iff {R : RegionEntry → RegionEntry → Prop} (t : Vector RegionEntry 8) :
    t.toList.Pairwise R ↔ ∀ i j : Fin 8, i < j → R t[i] t[j] := by
  rw [List.pairwise_iff_getElem]
  simp only [Vector.length_toList, Vector.getElem_toList]
  exact ⟨fun h i j hij => h i.val j.val i.isLt j.isLt hij, fun h i j hi hj hij => h ⟨i, hi⟩ ⟨j, hj⟩ hij⟩

/-- Two entries of the table cover a unit in common. -/
def tableOverlaps (t : Vector RegionEntry 8) : Prop :=
  ∃ (i j : Fin 8) (u : Nat), i ≠ j ∧ (t[i]).covers u = true ∧ (t[j]).covers u = true

theorem noOverlap_table (t : Vector RegionEntry 8) : noOverlap t.toList = true ↔ ¬ tableOverlaps t := by
  rw [noOverlap_iff, vector_pairwise_iff]
  constructor
  · rintro h ⟨i, j, u, hij, hi, hj⟩
    have apart : ∀ a b : Fin 8, a < b → (t[a]).covers u = true → (t[b]).covers u = true → False := fun a b hab ha hb =>
      absurd ((overlaps_iff _ _).mpr ⟨u, ha, hb⟩) (by rw [h a b hab]; decide)
    rcases lt_or_gt_of_ne hij with k | k
    · exact apart i j k hi hj
    · exact apart j i k hj hi
  · intro h i j hij
    rw [Bool.eq_false_iff]
    intro k
    obtain ⟨u, hi, hj⟩ := (overlaps_iff _ _).mp k
    exact h ⟨i, j, u, hij.ne, hi, hj⟩

theorem pendingValid_iff (d : Device) : d.pendingValid = true
    ↔ ¬ ((∃ i : Fin 8, (d.regions.pendingTable[i]).faulty d.part.straps) ∨ tableOverlaps d.regions.pendingTable) := by
  unfold Device.pendingValid
  rw [Bool.and_eq_true, noOverlap_table, not_or, List.all_eq_true]
  refine and_congr ⟨fun h ⟨i, hi⟩ => ?_, fun h e he => ?_⟩ Iff.rfl
  · exact (valid_iff _ _).mp (h _ (Vector.mem_toList_iff.mpr (Vector.getElem_mem i.isLt))) hi
  · obtain ⟨i, hi, rfl⟩ := Vector.mem_iff_getElem.mp (Vector.mem_toList_iff.mp he)
    exact (valid_iff _ _).mpr fun k => h ⟨⟨i, hi⟩, k⟩

/-! ### APPLY -/

theorem applyCopy_of_none_waiting {d : Device} (h : d.regions.applyWaiting = false) :
    d.applyCopy = { d with regions := { d.regions with active := d.regions.pendingTable } } := by
  unfold Device.applyCopy
  rw [← h]

theorem exec_applyRequest {s : State} {f : Frame} (ht : s.takes f) (hr : f.row = .apply) (ha : frameArrives f 1) :
    exec (.applyRequest f) s = .next (s.withDev (s.dev.writeFrame f s.dev.part.straps)) :=
  frameOfRow_next s.dev.part.straps ht (fits_of_row hr ha.1) ha.1

theorem writeResult_apply {d : Device} {f : Frame} (ha : frameArrives f 1) (hi : f.item = 0x40) (hv : f.word 0 = 1) :
    d.writeResult f = if d.regions.applyWaiting = true ∨ d.pendingValid = false then .refused else .ok := by
  have hgood : ∀ k < 1, writeGood (f.item + k) (f.word k) = true := fun k hk => by
    obtain rfl : k = 0 := by omega
    rw [hi, hv]
    rfl
  have hrefused : d.writeRefused (f.item + 0) (f.word 0) = (d.regions.applyWaiting || !d.pendingValid) := by
    rw [hi]
    rfl
  split
  · next h => exact writeResult_refused ha hgood (by decide : 0 < 1) (hrefused.trans (by simpa using h))
  · next h =>
    refine writeResult_good ha hgood fun k hk => ?_
    obtain rfl : k = 0 := by omega
    exact hrefused.trans (by simpa using h)

theorem writeFrame_apply {d : Device} {f : Frame} {st : Straps} (hs : d.settle = d) (ha : frameArrives f 1)
    (hi : f.item = 0x40) (hr : d.writeResult f = .ok) : d.writeFrame f st = d.takeApply.endFrame f d .ok := by
  rw [writeFrame_ok hr ha.2.1, writes_one, hi]
  exact endFrame_settle (regions_settle hs (takeApply_frame d)) f d .ok

/-- Settles O17: APPLY is judged by the pending table and the flag, and then by the quiet condition. -/
theorem applyByValidity : Obligations.ApplyByValidity := by
  intro s f ht hset hr ha hv t st faulty quiet
  have hi := (ha.rows (by rw [hr]; decide)).2.2.1.mp hr
  have hx := exec_applyRequest ht hr ha
  have hvalid : s.dev.pendingValid = true ↔ ¬ faulty := pendingValid_iff s.dev
  have hres := writeResult_apply (d := s.dev) ha hi hv
  have taken : s.dev.regions.applyWaiting = false → ¬ faulty →
      exec (.applyRequest f) s = .next (s.withDev (s.dev.takeApply.endFrame f s.dev .ok)) := fun hw hf => by
    rw [if_neg (by simp [hw, hvalid.mpr hf])] at hres
    exact hx.trans (next_withDev_congr s (writeFrame_apply hset.1 ha hi hres))
  refine ⟨fun h => ?_, fun hw hf hq => (taken hw hf).trans (next_withDev_congr s ?_),
    fun hw hf hq => (taken hw hf).trans (next_withDev_congr s ?_)⟩
  · rw [if_pos (h.imp_right fun k => Bool.eq_false_iff.mpr fun e => hvalid.mp e k)] at hres
    exact hx.trans (next_withDev_congr s (writeFrame_discards hset.1 hres nofun nofun _))
  · have hcopy : s.dev.takeApply = { s.dev with regions := { s.dev.regions with active := t } } :=
      (if_pos ((quiet_iff s.dev).mpr hq)).trans (applyCopy_of_none_waiting hw)
    rw [hcopy]
  · have hwait : s.dev.takeApply = { s.dev with regions := { s.dev.regions with applyWaiting := true } } :=
      if_neg (mt (quiet_iff s.dev).mp hq)
    rw [hwait]

end Sys2Proof.Machine
end

section
/-! What changes the active table (R7, R10, R12, R13). -/

namespace Sys2Proof.Machine

/-! ### Reading it and writing to it -/

theorem readItem_activeEntry (d : Device) {n : Nat} (h : 0x30 ≤ n ∧ n ≤ 0x3F) : d.readItem n
    = some ((d.regions.active[Fin.ofNat 8 ((n - 0x30) / 2)]).item (decide (n % 2 = 1))) := by
  unfold Device.readItem
  iterate 13 rw [if_neg (by omega)]
  rw [if_pos h]

theorem readItem_active (d : Device) (i : Fin 8) :
    d.readItem (0x30 + 2 * i.val) = some ((d.regions.active[i]).item false)
      ∧ d.readItem (0x31 + 2 * i.val) = some ((d.regions.active[i]).item true) := by
  have hi := i.isLt
  have h1 : Fin.ofNat 8 ((0x30 + 2 * i.val - 0x30) / 2) = i := Fin.ext (by rw [Fin.val_ofNat]; omega)
  have h2 : Fin.ofNat 8 ((0x31 + 2 * i.val - 0x30) / 2) = i := Fin.ext (by rw [Fin.val_ofNat]; omega)
  rw [readItem_activeEntry d (by omega), readItem_activeEntry d (by omega),
    decide_eq_false (by omega : ¬ (0x30 + 2 * i.val) % 2 = 1), decide_eq_true (by omega : (0x31 + 2 * i.val) % 2 = 1)]
  simp only [h1, h2, and_self]

theorem item_second (e : RegionEntry) : e.item true
    = BitVec.ofNat 32 e.mode.toNat ||| BitVec.ofNat 32 e.view.toNat <<< 8 := by
  unfold RegionEntry.item field
  rw [if_pos rfl, BitVec.shiftLeft_zero]

theorem writeGood_active (v : Word) {n : Nat} (h : 0x30 ≤ n ∧ n ≤ 0x3F) : writeGood n v = false := by
  rw [Bool.eq_false_iff, ne_eq, writeGood_iff]
  unfold itemTakes
  omega

theorem exec_activeTableWrite {s : State} {f : Frame} {w : Nat} (ht : s.takes f) (hr : f.row = .activeTable)
    (ha : frameArrives f w) :
    exec (.activeTableWrite f) s = .next (s.withDev (s.dev.writeFrame f s.dev.part.straps)) :=
  frameOfRow_next s.dev.part.straps ht (fits_of_row hr ha.1) ha.1

/-! ### What a command makes of it -/

/-- The commands that clear the active table. -/
def clearsTables (c : Instr) : Prop := c = .powerLoss ∨ ∃ st, c = .powerOnComplete st ∨ c = .rstReleased st

/-- How the region map of `e` comes from that of `s` in the run of `c`: the active table stands, or holds the pending one
that an APPLY left waiting, or is cleared. -/
def regionsFrom (c : Instr) (s e : RegionMap) : Prop :=
  (e.active = s.active ∧ (e.applyWaiting = true → s.applyWaiting = true ∧ e.pendingTable = s.pendingTable))
    ∨ (e.active = s.pendingTable ∧ e.applyWaiting = false ∧ s.applyWaiting = true)
    ∨ (e.active = RegionMap.cleared.active ∧ e.applyWaiting = false ∧ clearsTables c)

section
variable {c : Instr} {r : RegionMap} {d e : Device}

theorem regionsFrom.refl (c : Instr) (r : RegionMap) : regionsFrom c r r := Or.inl ⟨rfl, fun h => ⟨h, rfl⟩⟩

theorem regionsFrom.cleared (h : clearsTables c) : regionsFrom c r RegionMap.cleared := Or.inr (Or.inr ⟨rfl, rfl, h⟩)

theorem regionsFrom.copied (h : regionsFrom c r d.regions) (ha : d.regions.applyWaiting = true) :
    regionsFrom c r d.applyCopy.regions := by
  rcases h with ⟨_, hw⟩ | ⟨_, hw, _⟩ | ⟨_, hw, _⟩
  · obtain ⟨hwaited, hpending⟩ := hw ha
    exact Or.inr (Or.inl ⟨hpending, rfl, hwaited⟩)
  · exact absurd (ha.symm.trans hw) (by decide)
  · exact absurd (ha.symm.trans hw) (by decide)

theorem Change.regionsFrom (h : Change d e) (hd : Machine.regionsFrom c r d.regions) :
    Machine.regionsFrom c r e.regions := by
  cases h with
  | work h => rwa [h.regions]
  | contexts hf _ => rwa [hf .regions (by decide)]
  | evaluated x _ => rwa [evaluate_frame d x .regions (by decide)]
  | headLeaves => rwa [headLeaves_frame d .regions (by decide)]
  | copied ha => exact hd.copied ha
  | restarted _ =>
    change Machine.regionsFrom c r (d.startClear .restart _).copyIfQuiet.regions
    unfold Device.copyIfQuiet
    split
    · next hc => exact regionsFrom.copied (d := d.startClear _ _) hd hc.1
    · exact hd
  | _ => exact hd

theorem Begins.regionsFrom (h : Begins c d e) (hc : ∀ f, c ≠ .applyRequest f) :
    Machine.regionsFrom c d.regions e.regions := by
  cases h with
  | pendingWritten ha hw =>
    rw [writeItems_pending_active hw]
    exact Or.inl ⟨rfl, fun hn => absurd (ha.symm.trans hn) (by decide)⟩
  | applied _ => exact absurd rfl (hc _)
  | settingsWritten hw =>
    rw [writeItems_settings_frame hw d _ .regions (by decide)]
    exact .refl _ _
  | reset _ =>
    rw [stopAll_frame _ .regions (by decide)]
    exact .refl _ _
  | released _ =>
    unfold Device.releaseRst
    simp only
    split
    · rw [beginStart_regions_of_ne _ (stoppedStartKind_ne _)]
      exact .cleared (Or.inr ⟨_, Or.inr rfl⟩)
    · exact .refl _ _
  | powered _ _ => exact .cleared (Or.inr ⟨_, Or.inl rfl⟩)
  | lost => exact .cleared (Or.inl rfl)
  | _ => exact .refl _ _

theorem Runs.regionsFrom (h : Runs c d e) (hc : ∀ f, c ≠ .applyRequest f) :
    Machine.regionsFrom c d.regions e.regions := by
  obtain ⟨d1, e1, hbegin, hpath, hend⟩ := h
  have he : Machine.regionsFrom c d.regions e1.regions :=
    hpath.keeps (P := fun x => Machine.regionsFrom c d.regions x.regions) (fun _ _ h k => h.regionsFrom k)
      (hbegin.regionsFrom hc)
  cases hend with
  | settled => rwa [settle_frame e1 .regions (by decide)]
  | _ => exact he

end

/-! ### APPLY -/

/-- The frame is an APPLY that is taken (R8, R9). -/
def appliesNow (s : State) (f : Frame) : Prop :=
  f.row = .apply ∧ s.takes f ∧ frameArrives f 1 ∧ f.word 0 = 1 ∧ s.dev.pendingValid = true ∧ s.dev.quiet = true

theorem writeFrame_regions (d : Device) (f : Frame) (st : Straps) :
    (d.writeFrame f st).regions = (d.writeEffect f st (d.writeResult f)).regions :=
  Eq.trans (settle_frame _ .regions (by decide)) (endFrame_frame _ f d _ .regions (by decide))

/-- The items of an APPLY frame that passes every test are APPLY alone, with its one value (R192, R196). -/
theorem apply_arrives {d : Device} {f : Frame} (hr : f.row = .apply) (he : f.ended = true)
    (hok : d.writeResult f = .ok) :
    frameArrives f 1 ∧ f.item = 0x40 ∧ f.word 0 = 1 ∧ d.pendingValid = true := by
  obtain ⟨w, ha, hgood, hfree⟩ := writeResult_ok hok he
  have hi := (ha.rows (by rw [hr]; decide)).2.2.1.mp hr
  have hpos := ha.words_pos
  have hw : w = 1 := by
    cases itemsOfOneKind (by omega) hgood
    case apply h => exact h.2
    all_goals omega
  subst hw
  have hfirst := hgood _ (mem_writes.mpr ⟨0, Nat.one_pos, rfl⟩)
  have hfreed := hfree _ (mem_writes.mpr ⟨0, Nat.one_pos, rfl⟩)
  simp only [Nat.add_zero, hi] at hfirst hfreed
  have hfreed' : (d.regions.applyWaiting || !d.pendingValid) = false := hfreed
  rw [Bool.or_eq_false_iff, Bool.not_eq_false'] at hfreed'
  have hv := (writeGood_iff _ _).mp hfirst
  unfold itemTakes at hv
  exact ⟨ha, hi, (word_eq_iff _).1.mpr (by omega), hfreed'.2⟩

/-- An APPLY leaves the active table, or copies at once where the quiet condition holds (R9). -/
theorem writeFrame_apply_active {s : State} {f : Frame} (st : Straps) (hr : f.row = .apply) (ht : s.takes f)
    (he : f.ended = true) : (s.dev.writeFrame f st).regions.active = s.dev.regions.active
      ∨ ((s.dev.writeFrame f st).regions.active = s.dev.regions.pendingTable
          ∧ (s.dev.writeFrame f st).regions.applyWaiting = false ∧ appliesNow s f) := by
  rw [writeFrame_regions]
  unfold Device.writeEffect
  split
  · next w hok hw =>
    obtain ⟨ha, hi, hv, hvalid⟩ := apply_arrives hr he hok
    obtain rfl : w = 1 := Option.some.inj (hw.symm.trans ha.2.1)
    rw [writes_one, hi]
    change (Device.takeApply s.dev).regions.active = _ ∨ (Device.takeApply s.dev).regions.active = _
      ∧ (Device.takeApply s.dev).regions.applyWaiting = _ ∧ _
    unfold Device.takeApply
    split
    · next hq => exact Or.inr ⟨rfl, rfl, hr, ht, ha, hv, hvalid, hq⟩
    · exact Or.inl rfl
  · exact Or.inl rfl
  · exact Or.inl rfl

theorem exec_apply_active {s t : State} {f : Frame} (h : exec (.applyRequest f) s = .next t) :
    t.dev.regions.active = s.dev.regions.active
      ∨ (t.dev.regions.active = s.dev.regions.pendingTable ∧ t.dev.regions.applyWaiting = false ∧ appliesNow s f) := by
  obtain ⟨d, hd, rfl⟩ := onDevice_eq_next.mp h
  obtain ⟨hfits, hclock⟩ := frameOfRow_eq_next.mp hd
  rcases clockFrame_eq_next.mp hclock with ⟨_, rfl⟩ | ⟨hs, hc, rfl⟩
  · exact Or.inl rfl
  · split
    · next he => exact writeFrame_apply_active _ (row_of_fits hfits he) ⟨hs, hc⟩ he
    · exact Or.inl rfl

theorem takesOf_pending (s : State) (rest : List Instr) (f : Frame) :
    appliesNow { s with pending := rest } f → appliesNow s f := id

/-- Settles O15: the active table is no item that is written, and its changes are the copies and the clearings. -/
theorem activeTableIsReadOnly : Obligations.ActiveTableIsReadOnly := by
  refine ⟨fun d i => ?_, fun s f w ht hset ha => ⟨fun hr => ?_, fun hr hpast => ?_⟩, fun s t h => ?_⟩
  · obtain ⟨h1, h2⟩ := readItem_active d i
    exact ⟨h1, h2.trans (congrArg some (item_second _))⟩
  · have hi := (ha.rows (by rw [hr]; decide)).2.1.mp hr
    have hpos := ha.words_pos
    have hres : s.dev.writeResult f = .badItem :=
      writeResult_badItem ha (by omega : 0 < w) (writeGood_active _ (by omega))
    exact (exec_activeTableWrite ht hr ha).trans
      (next_withDev_congr s (writeFrame_discards hset.1 hres nofun nofun _))
  · have hi := (ha.rows (by rw [hr]; decide)).1.mp hr
    have hpos := ha.words_pos
    have hres : s.dev.writeResult f = .badItem :=
      writeResult_badItem ha (by omega : 0x30 - f.item < w) (writeGood_active _ (by omega))
    exact (exec_pendingTableWrite ht hr ha).trans
      (next_withDev_congr s (writeFrame_discards hset.1 hres nofun nofun _))
  · rcases step_cases h with ⟨_, htick⟩ | ⟨c, rest, hp, hrun⟩
    · rw [htick]
      exact Or.inl rfl
    · by_cases hc : ∃ f, c = .applyRequest f
      · obtain ⟨f, rfl⟩ := hc
        have hx : exec (.applyRequest f) { s with pending := rest } = .next t := by
          unfold step at h
          rwa [hp] at h
        rcases exec_apply_active hx with hactive | ⟨hactive, hwait, happlies⟩
        · exact Or.inl hactive
        · obtain ⟨hr, ht, ha, hv, hvalid, hq⟩ := takesOf_pending s rest f happlies
          exact Or.inr (Or.inl ⟨hactive, hwait, Or.inr ⟨f, rest, hp, hr, ht, ha, hv, hvalid, hq⟩⟩)
      · rcases hrun.regionsFrom (fun f k => hc ⟨f, k⟩) with ⟨hactive, _⟩ | ⟨hactive, hwait, hwaited⟩
          | ⟨hactive, _, hclears⟩
        · exact Or.inl hactive
        · exact Or.inr (Or.inl ⟨hactive, hwait, Or.inl hwaited⟩)
        · exact Or.inr (Or.inr ⟨hactive, c, rest, hp, hclears⟩)

end Sys2Proof.Machine
end

section
/-! FORMAT (R124). -/

namespace Sys2Proof.Machine

/-! ### Its conditions -/

theorem formatAllowed_iff (d : Device) : d.formatAllowed = true ↔ d.part.state = .running ∧ d.journal.formatting = false
    ∧ (∀ c, (d.ctx c).state = .free) ∧ ∀ e ∈ d.queue, ∃ w, e = .plain w := by
  unfold Device.formatAllowed
  rw [Bool.and_eq_true, Bool.and_eq_true, decide_eq_true_iff, Bool.not_eq_true', quiet_iff, and_assoc]
  rfl

theorem writeResult_format {d : Device} {f : Frame} (ha : frameArrives f 1) (hi : f.item = 0x60) (hv : f.word 0 = 1) :
    d.writeResult f = if d.formatAllowed then .ok else .refused := by
  have hgood : ∀ k < 1, writeGood (f.item + k) (f.word k) = true := fun k hk => by
    obtain rfl : k = 0 := by omega
    rw [hi, hv]
    rfl
  have hrefused : d.writeRefused (f.item + 0) (f.word 0) = !d.formatAllowed := by
    rw [hi, hv]
    rfl
  split
  · next h =>
    refine writeResult_good ha hgood fun k hk => ?_
    obtain rfl : k = 0 := by omega
    exact hrefused.trans (by rw [h]; rfl)
  · next h => exact writeResult_refused ha hgood (by decide : 0 < 1) (hrefused.trans (by simpa using h))

/-! ### What it makes of the journal controller and of the port -/

/-- The journal controller with FORMAT taken, but for its anchor write (R124). -/
def Journal.formatted (j : Journal) : Journal :=
  { j with
    cond := .blank, pass := none, passAgain := false, reclaim := .idle, reclaimAgain := false
    forcedPending := false, formatting := true }

/-- The device with FORMAT taken, but for its anchor write (R124). -/
def Device.formatted (d : Device) : Device :=
  { d.withdraw Access.isHeaderRead with journal := d.journal.formatted }

theorem takeFormat_eq (d : Device) :
    d.takeFormat = if d.journal.anchor = none then d.formatted.issueAnchor .format else d.formatted := by
  unfold Device.takeFormat
  cases hj : d.journal.anchor with
  | none => exact (if_pos rfl).symm
  | some w => exact (if_neg nofun).symm

theorem takeFormat_frame (d : Device) : unchangedBut [.journal, .port] d d.takeFormat := by
  have hf : unchangedBut [.journal, .port] d d.formatted :=
    (withdraw_frame d Access.isHeaderRead).comp (journal_frame _ _) (by decide) (by decide)
  rw [takeFormat_eq]
  split
  · exact hf.comp (issueAnchor_frame _ _) (by decide) (by decide)
  · exact hf

theorem takeFormat_journal (d : Device) : d.takeFormat.journal = { d.journal.formatted with
    anchor := match d.journal.anchor with
      | none => some { tail := 0, why := .format }
      | some w => some w } := by
  rw [takeFormat_eq]
  cases hj : d.journal.anchor with
  | none => exact congrArg Device.journal (if_pos rfl : _ = d.formatted.issueAnchor .format)
  | some w =>
    refine (congrArg Device.journal (if_neg nofun : _ = d.formatted)).trans ?_
    exact congrArg (fun a => { d.journal.formatted with anchor := a }) (show d.journal.formatted.anchor = some w from hj)

theorem anchorLine_data (d : Device) (tail : Nat) (seq inst : Word) :
    (d.anchorLine tail seq inst).words.map (·.data) = anchorWords d.ring tail seq inst := rfl

theorem takeFormat_asked {d : Device} (h : d.journal.anchor = none) :
    .write (.anchor true) (d.anchorLine 0 d.journal.nextSeq 1) ∈ d.takeFormat.port.asked := by
  rw [takeFormat_eq, if_pos h]
  exact issueAnchor_format_asked d.formatted

theorem takeFormat_waiting {d : Device} {a : Access} (h : a ∈ d.takeFormat.port.waiting) : a.isHeaderRead = false := by
  have kept : ∀ {b}, b ∈ d.formatted.port.waiting → b.isHeaderRead = false := fun hb => by
    have := (List.mem_filter.mp hb).2
    simpa using this
  rw [takeFormat_eq] at h
  split at h
  · rcases List.mem_append.mp (show a ∈ d.formatted.port.waiting ++ [_] from h) with h | h
    · exact kept h
    · rw [List.mem_singleton.mp h]
      rfl
  · exact kept h

theorem grant_waiting {d : Device} {a : Access} (h : a ∈ d.grant.port.waiting) : a ∈ d.port.waiting := by
  rcases grant_cases d with hg | ⟨b, _, _, _, hg⟩ <;> rw [hg] at h
  · exact h
  · exact List.mem_of_mem_erase h

/-- A withdrawal leaves the arbiter as quiet as it was. -/
theorem quietPort_withdraw {d : Device} (h : quietPort d.port) (p : Access → Bool) : quietPort (d.withdraw p).port := by
  rcases h with h | h | ⟨hw, ho⟩
  · exact Or.inl h
  · exact Or.inr (Or.inl h)
  · refine Or.inr (Or.inr ⟨?_, ho⟩)
    change d.port.waiting.filter _ = []
    rw [hw]
    rfl

/-- What may be granted when FORMAT is taken is its anchor write: the engine stands. -/
theorem takeFormat_grant_engine {d m : Device} (hq : quietPort d.port) (hp : m.port = d.takeFormat.port)
    (he : m.engine = d.engine) : m.grant.engine = d.engine := by
  have hquiet := quietPort_withdraw hq Access.isHeaderRead
  rw [takeFormat_eq] at hp
  rw [← he]
  split at hp
  · rcases grant_cases_of_quiet hquiet hp with hg | hg <;> rw [hg]
    cases m.engine <;> rfl
  · have hm : quietPort m.port := hp ▸ hquiet
    rw [(grant_eq_self_iff m).mpr hm]

/-! ### The command -/

theorem exec_formatCommand {s : State} {f : Frame} (ht : s.takes f) (hr : f.row = .format) (ha : frameArrives f 1) :
    exec (.formatCommand f) s = .next (s.withDev (s.dev.writeFrame f s.dev.part.straps)) :=
  frameOfRow_next s.dev.part.straps ht (fits_of_row hr ha.1) ha.1

theorem writeFrame_format {d : Device} {f : Frame} {st : Straps} (ha : frameArrives f 1) (hi : f.item = 0x60)
    (hv : f.word 0 = 1) (hs : d.part.state = .running) (hr : d.writeResult f = .ok) :
    d.writeFrame f st = (d.takeFormat.endFrame f d .ok).grant := by
  rw [writeFrame_ok hr ha.2.1, writes_command _ _ hi hv]
  refine settle_of_running ?_
  exact (congrArg (·.state) (takeFormat_frame d .part (by decide))).trans hs

/-- Settles O59: FORMAT is refused by `Device.formatAllowed`, and else `Device.takeFormat`. -/
theorem formatTaken : Obligations.FormatTaken := by
  intro s f ht hset hr ha allowed
  obtain ⟨hi, hv⟩ := (ha.rows (by rw [hr]; decide)).2.2.2.1.mp hr
  have hx := exec_formatCommand ht hr ha
  have hres := writeResult_format (d := s.dev) ha hi hv
  refine ⟨fun hno => ?_, fun hyes => ?_⟩
  · rw [if_neg (mt (formatAllowed_iff s.dev).mp hno)] at hres
    exact hx.trans (next_withDev_congr s (writeFrame_discards hset.1 hres nofun nofun _))
  · rw [if_pos ((formatAllowed_iff s.dev).mpr hyes)] at hres
    have hframe := writeFrame_format (st := s.dev.part.straps) ha hi hv hyes.1 hres
    let e := s.dev.takeFormat.endFrame f s.dev .ok
    have hf : unchangedBut [.journal, .port, .mgmt] s.dev e :=
      (takeFormat_frame s.dev).comp (endFrame_frame _ f s.dev .ok) (by decide) (by decide)
    have hm : s.dev.takeFormat.mgmt = s.dev.mgmt := takeFormat_frame s.dev .mgmt (by decide)
    have hengine : e.grant.engine = s.dev.engine :=
      takeFormat_grant_engine ((grant_eq_self_iff _).mp hset.grant) rfl (hf .engine (by decide))
    have hg := grant_frame e
    refine ⟨e.grant, hx.trans (next_withDev_congr s hframe), ?_, Eq.trans (hg .mgmt (by decide)) ?_,
      Eq.trans (hg .journal (by decide)) (takeFormat_journal s.dev), fun hnone => ?_, fun l hl => ?_⟩
    · exact (hf.comp hg (by decide) (by decide) : unchangedBut [.engine, .journal, .port, .mgmt] s.dev e.grant).of_engine
        hengine
    · change (s.dev.takeFormat.endFrame f s.dev .ok).mgmt = _
      unfold Device.endFrame
      rw [hm]
    · have hasked := takeFormat_asked hnone
      exact ⟨_, (mem_asked_grant (d := e) (by simp)).mpr hasked, rfl, anchorLine_data s.dev 0 _ 1⟩
    · have hkept := takeFormat_waiting (d := s.dev) (a := .read .header l) (grant_waiting (d := e) hl)
      exact absurd hkept (by simp [Access.isHeaderRead])

end Sys2Proof.Machine
end

section
/-! The item space: the read values, the alert items and the settings (R192-R199). -/

namespace Sys2Proof.Machine

/-! ### Words of fields -/

theorem itemWord_one (a x : Nat) : itemWord [(a, x)] = field a x := BitVec.or_zero

theorem itemWord_cons (a x : Nat) (f : Nat × Nat) (fs : List (Nat × Nat)) :
    itemWord ((a, x) :: f :: fs) = field a x ||| itemWord (f :: fs) := rfl

theorem field_zero (v : Nat) : field 0 v = BitVec.ofNat 32 v := BitVec.shiftLeft_zero _

theorem field_zeroExtend {n : Nat} (v : BitVec n) : field 0 v.toNat = v.zeroExtend 32 := by
  refine BitVec.eq_of_toNat_eq ?_
  rw [field_zero, BitVec.toNat_ofNat]
  exact (BitVec.toNat_setWidth 32 v).symm

theorem append_fields (a b : BitVec 16) : a ++ b = field 16 a.toNat ||| field 0 b.toNat := by
  refine BitVec.eq_of_getLsbD_eq fun i hi => ?_
  rw [field_zero, field, BitVec.getLsbD_or, BitVec.getLsbD_shiftLeft, BitVec.getLsbD_append, BitVec.getLsbD_ofNat,
    BitVec.getLsbD_ofNat]
  by_cases h : i < 16
  · simp [h, hi, BitVec.getLsbD]
  · have hb : b.getLsbD i = false := BitVec.getLsbD_of_ge b i (by omega)
    have hsub : i - 16 < 32 := by omega
    simp only [h, hi, hsub, decide_true, decide_false, Bool.true_and, Bool.not_false]
    rw [show b.toNat.testBit i = b.getLsbD i from rfl, hb]
    simp [BitVec.getLsbD]

/-- The two items of a region entry (R194). -/
theorem entry_items (e : RegionEntry) :
    e.item false = itemWord [(16, e.base.toNat), (0, e.size.toNat)]
      ∧ e.item true = itemWord [(0, e.mode.toNat), (8, e.view.toNat)] := by
  rw [itemWord_cons, itemWord_one, itemWord_cons, itemWord_one]
  exact ⟨append_fields e.base e.size, rfl⟩

/-! ### The place of a context in the rollback list -/

theorem listPlace_eq (c : Ctx) (es : List ListEntry) : listPlace c es
    = match es.findIdx? fun e => decide (e.ctx = c) with
      | none => 0
      | some i => i + 1 := by
  induction es with
  | nil => rfl
  | cons e es ih =>
    rw [listPlace, List.findIdx?_cons]
    by_cases h : e.ctx = c
    · simp [h]
    · simp only [h, if_false, decide_false, Bool.false_eq_true, ih]
      cases es.findIdx? fun e => decide (e.ctx = c) <;> rfl

/-! ### Read values by the number -/

section
variable (d : Device)

theorem readItem_pendingEntry {n : Nat} (h : 0x20 ≤ n ∧ n ≤ 0x2F) : d.readItem n
    = some ((d.regions.pendingTable[Fin.ofNat 8 ((n - 0x20) / 2)]).item (decide (n % 2 = 1))) := by
  unfold Device.readItem
  iterate 12 rw [if_neg (by omega)]
  rw [if_pos h]

theorem readItem_pending (i : Fin 8) :
    d.readItem (0x20 + 2 * i.val) = some ((d.regions.pendingTable[i]).item false)
      ∧ d.readItem (0x21 + 2 * i.val) = some ((d.regions.pendingTable[i]).item true) := by
  have hi := i.isLt
  have h1 : Fin.ofNat 8 ((0x20 + 2 * i.val - 0x20) / 2) = i := Fin.ext (by rw [Fin.val_ofNat]; omega)
  have h2 : Fin.ofNat 8 ((0x21 + 2 * i.val - 0x20) / 2) = i := Fin.ext (by rw [Fin.val_ofNat]; omega)
  rw [readItem_pendingEntry d (by omega), readItem_pendingEntry d (by omega),
    decide_eq_false (by omega : ¬ (0x20 + 2 * i.val) % 2 = 1), decide_eq_true (by omega : (0x21 + 2 * i.val) % 2 = 1)]
  simp only [h1, h2, and_self]

theorem readItem_contextWord2 (c : Ctx) : d.readItem (0x11 + 2 * c.val) = some (d.contextWord2 c) := by
  match c with
  | 0 => rfl
  | 1 => rfl
  | 2 => rfl
  | 3 => rfl

theorem readItem_setting {n : Nat} (h : n < 7) :
    d.readItem (0x50 + n) = some (itemWord [(0, d.mgmt.settings.item n)]) := by
  rw [itemWord_one]
  unfold Device.readItem
  iterate 15 rw [if_neg (by omega)]
  rw [if_pos (by omega), Nat.add_sub_cancel_left]

theorem ite_some_eq_none {α : Type} {p : Prop} [Decidable p] {a : α} {x : Option α} :
    (if p then some a else x) = none ↔ ¬ p ∧ x = none := by
  split <;> simp_all

/-- No other number names an item (R192). -/
theorem readItem_none (n : Nat) : d.readItem n = none ↔ ¬ namesItem n := by
  unfold Device.readItem
  simp only [ite_some_eq_none, and_true]
  unfold namesItem
  constructor
  · intro h hn
    rcases hn with hn | hn | hn | hn | hn | hn | hn | hn | hn | hn | hn
    · interval_cases n <;> simp at h
    all_goals omega
  · intro h
    omega

/-! ### The read values of the blocks -/

/-- An item that holds one field. -/
theorem readItem_field {n v : Nat} (h : d.readItem n = some (field 0 v)) : d.readItem n = some (itemWord [(0, v)]) :=
  h.trans (congrArg some (itemWord_one 0 v).symm)

/-- An item that holds two fields. -/
theorem readItem_fields {n a b x y : Nat} (h : d.readItem n = some (field a x ||| field b y)) :
    d.readItem n = some (itemWord [(a, x), (b, y)]) :=
  h.trans (congrArg some (by rw [itemWord_cons, itemWord_one]))

theorem partStatus_fields : d.partStatus = itemWord [(28, d.part.state.code), (24, phaseCode d.part.phase),
    (22, d.part.kind.code), (20, d.journal.cond.code), (17, bit d.part.pfwarn), (16, bit d.part.holdFlag),
    (8, bit d.journal.formatting), (0, bit d.regions.applyWaiting)] := by
  simp only [Device.partStatus, itemWord_cons, itemWord_one, BitVec.or_assoc]

theorem contextWord2_fields (c : Ctx) : d.contextWord2 c = itemWord [(30, spoilCode (d.ctx c).spoil),
    (24, (d.ctx c).queued), (20, bit (d.ctx c).commitWaiter), (16, bit (d.ctx c).newest.isSome),
    (8, match d.rollback.list.findIdx? fun e => decide (e.ctx = c) with
      | none => 0
      | some i => i + 1)] := by
  rw [← listPlace_eq]
  simp only [Device.contextWord2, itemWord_cons, itemWord_one, BitVec.or_assoc]

theorem report_fields (r : Report) : r.item = itemWord [(30, r.kind.code), (28, r.cond.code), (24, r.reason.code),
    (16, bit r.complete), (8, r.found), (0, r.rolledBack)] := by
  simp only [Report.item, itemWord_cons, itemWord_one, BitVec.or_assoc]

theorem refusal_fields (r : RefusalRecord) :
    field 28 r.code.code ||| field 24 r.ctx.toNat ||| field 0 r.kind.code
      = itemWord [(28, r.code.code), (24, r.ctx.toNat), (0, r.kind.code)] := by
  simp only [itemWord_cons, itemWord_one, BitVec.or_assoc]

theorem setting_burstOrder (x : Settings) : x.item 0 = if x.burstOrder = .interleaved then 1 else 0 := by
  unfold Settings.item
  cases x.burstOrder <;> rfl

theorem setting_leaseAction (x : Settings) : x.item 3 = if x.leaseAction = .revoke then 1 else 0 := by
  unfold Settings.item
  cases x.leaseAction <;> rfl

theorem itemValues_holds : itemValues d := by
  unfold itemValues
  intro reads flag j r used entry noted
  have setting : ∀ n, n < 7 → d.readItem (0x50 + n) = some (itemWord [(0, d.mgmt.settings.item n)]) := fun n hn =>
    readItem_setting d hn
  have region : ∀ {n : Nat} {e : RegionEntry}, d.readItem n = some (e.item false) ∧ d.readItem (n + 1) = some (e.item true) →
      entry n e := fun {n e} h => by
    obtain ⟨h1, h2⟩ := entry_items e
    exact ⟨h.1.trans (congrArg some h1), h.2.trans (congrArg some h2)⟩
  have noted_eq : ∀ c, notedNumber c = noted c := fun c => by cases c <;> rfl
  refine ⟨congrArg some (partStatus_fields d), readItem_field d rfl, readItem_field d rfl, readItem_field d rfl,
    readItem_field d rfl, readItem_field d rfl, rfl, rfl, rfl, readItem_fields d rfl,
    fun c => ⟨readItem_contextStatus d c, (readItem_contextWord2 d c).trans (congrArg some (contextWord2_fields d c)),
      readItem_contextInst d c⟩, fun i => ⟨region ?_, region ?_⟩, readItem_field d rfl, ?_, setting 1 (by decide),
    setting 2 (by decide), ?_, setting 4 (by decide), setting 5 (by decide), setting 6 (by decide), ?_, ?_, ?_, ?_, rfl,
    congrArg some (refusal_fields d.host.refusal), congrArg some (report_fields r), readItem_field d rfl,
    readItem_field d rfl, readItem_fields d rfl, readItem_field d rfl, readItem_none d⟩
  · rw [show 0x20 + 2 * i.val + 1 = 0x21 + 2 * i.val by omega]
    exact readItem_pending d i
  · rw [show 0x30 + 2 * i.val + 1 = 0x31 + 2 * i.val by omega]
    exact readItem_active d i
  · exact (setting 0 (by decide)).trans (by rw [setting_burstOrder])
  · exact (setting 3 (by decide)).trans (by rw [setting_leaseAction])
  · exact readItem_fields d rfl
  · exact readItem_field d (congrArg some (field_zeroExtend d.mgmt.causes).symm)
  · exact readItem_field d (congrArg some (field_zeroExtend d.mgmt.mask).symm)
  · refine readItem_fields d ?_
    rw [← noted_eq, ← noted_eq]
    rfl

theorem statusCodes_hold : statusCodes := ⟨rfl, rfl, rfl, rfl, rfl, rfl, rfl, rfl, rfl⟩

end

end Sys2Proof.Machine
end

section
/-! WRITE frames of the alert items and of the settings (R195, R197, R198). -/

namespace Sys2Proof.Machine

/-! ### The alert items -/

theorem alertLine_of_takes {s : State} {f g : Frame} {r : FrameResult} (ht : s.takes f) (m : Management) :
    (({ s.dev with mgmt := m } : Device).endFrame g s.dev r).alertLine = decide (m.causes &&& m.mask ≠ 0) := by
  have hs : decide (s.dev.part.state ≠ .stopped) = true := decide_eq_true ht.1
  unfold Device.alertLine
  change (_ && decide (s.dev.part.state ≠ .stopped)) = _
  rw [hs, Bool.and_true]
  rfl

/-- A frame whose items change the management port alone. -/
theorem writeFrame_mgmt {d : Device} {f : Frame} {w : Nat} {m : Management} (hs : d.settle = d) (hr : d.writeResult f = .ok)
    (hw : f.words = some w) (st : Straps) (hx : d.writeItems st (f.writes w) = { d with mgmt := m }) :
    d.writeFrame f st = ({ d with mgmt := m } : Device).endFrame f d .ok := by
  rw [writeFrame_ok hr hw, hx]
  exact endFrame_settle (d := { d with mgmt := m }) (mgmt_settle hs m) f d .ok

/-- Items of the alert unit and settings are never refused (R190). -/
theorem writeRefused_of_high {n : Nat} (d : Device) (v : Word) (h : 0x50 ≤ n) (hc : n ≠ 0x60) : d.writeRefused n v = false := by
  unfold Device.writeRefused
  rw [if_neg (by omega), if_neg (by omega), if_neg fun k => hc k.1]

theorem writeGood_alert {n : Nat} (v : Word) (h : n = 0x70 ∨ n = 0x71) : writeGood n v = true := by
  rcases h with rfl | rfl <;> rfl

theorem writeResult_alert {d : Device} {f : Frame} {w : Nat} (ha : frameArrives f w)
    (hi : 0x70 ≤ f.item ∧ f.item + w ≤ 0x72) : d.writeResult f = .ok :=
  writeResult_good ha (fun k hk => writeGood_alert _ (by omega)) fun k hk => writeRefused_of_high _ _ (by omega) (by omega)

theorem writes_two (f : Frame) : f.writes 2 = [(f.item, f.word 0), (f.item + 1, f.word 1)] := by
  rw [show 2 = 1 + 1 from rfl, writes_succ, writes_one, List.singleton_append]

/-! ### The settings -/

/-- The write of a setting stores it, and no other (R195). -/
theorem settings_write_item (x : Settings) {n m v : Nat} (hn : n < 7) (hm : m < 7)
    (hv : (settingRange n).1 ≤ v ∧ v ≤ (settingRange n).2) : (x.write n v).item m = if m = n then v else x.item m := by
  have flag : ∀ k, k = 0 ∨ k = 1 → (if k = 0 then 0 else 1) = k := by rintro k (rfl | rfl) <;> rfl
  by_cases h : m = n
  · subst h
    rw [if_pos rfl]
    have hflag : m = 0 ∨ m = 3 → v = 0 ∨ v = 1 := by
      rintro (rfl | rfl)
      · have := hv.2
        change v ≤ 1 at this
        omega
      · have := hv.2
        change v ≤ 1 at this
        omega
    interval_cases m
    · rcases hflag (Or.inl rfl) with rfl | rfl <;> rfl
    · rfl
    · rfl
    · rcases hflag (Or.inr rfl) with rfl | rfl <;> rfl
    all_goals rfl
  · rw [if_neg h]
    interval_cases n <;> interval_cases m <;> first | exact absurd rfl h | rfl

/-- The settings when the first `w` words of the frame are stored. -/
def settingsAfter (x : Settings) (f : Frame) (w : Nat) : Settings :=
  (List.range w).foldl (fun x k => x.write (f.item + k - 0x50) (f.word k).toNat) x

theorem settingsAfter_succ (x : Settings) (f : Frame) (w : Nat) :
    settingsAfter x f (w + 1) = (settingsAfter x f w).write (f.item + w - 0x50) (f.word w).toNat := by
  simp [settingsAfter, List.range_succ]

theorem writeItems_settings (d : Device) (st : Straps) (f : Frame) (hi : 0x50 ≤ f.item) : ∀ w, f.item + w ≤ 0x57 →
    d.writeItems st (f.writes w)
      = { d with mgmt := { d.mgmt with settings := settingsAfter d.mgmt.settings f w } } := by
  intro w
  induction w with
  | zero => exact fun _ => rfl
  | succ w ih =>
    intro hw
    rw [writes_succ, writeItems_append, ih (by omega), settingsAfter_succ]
    exact writeItem_setting _ st (f.word w) (by omega : 0x50 ≤ f.item + w ∧ f.item + w ≤ 0x56)

/-- Each setting that a word of the frame names holds it, and every other stands. -/
theorem settingsAfter_item (x : Settings) (f : Frame) (hi : 0x50 ≤ f.item) : ∀ w, f.item + w ≤ 0x57 →
    (∀ k, k < w → (settingRange (f.item + k - 0x50)).1 ≤ (f.word k).toNat
      ∧ (f.word k).toNat ≤ (settingRange (f.item + k - 0x50)).2) → ∀ n, n < 7 →
    (∀ k, k < w → n = f.item + k - 0x50 → (settingsAfter x f w).item n = (f.word k).toNat)
      ∧ ((∀ k, k < w → n ≠ f.item + k - 0x50) → (settingsAfter x f w).item n = x.item n) := by
  intro w
  induction w with
  | zero => exact fun _ _ n _ => ⟨fun k hk => absurd hk (Nat.not_lt_zero k), fun _ => rfl⟩
  | succ w ih =>
    intro hw hrange n hn
    obtain ⟨hset, hkept⟩ := ih (by omega) (fun k hk => hrange k (Nat.lt_succ_of_lt hk)) n hn
    have hlast := settings_write_item (settingsAfter x f w) (by omega : f.item + w - 0x50 < 7) hn
      (hrange w (Nat.lt_succ_self w))
    rw [settingsAfter_succ]
    refine ⟨fun k hk he => ?_, fun hne => ?_⟩
    · rcases Nat.lt_succ_iff_lt_or_eq.mp hk with hk | rfl
      · rw [hlast, if_neg (by omega)]
        exact hset k hk he
      · rw [hlast, if_pos he]
    · rw [hlast, if_neg (hne w (Nat.lt_succ_self w))]
      exact hkept fun k hk => hne k (Nat.lt_succ_of_lt hk)

/-- Settles O60: the frames write the management port alone, and the items read the fields they name. -/
theorem alertsAndSettingsWritten : Obligations.AlertsAndSettingsWritten := by
  refine ⟨?_, itemValues_holds, statusCodes_hold, rfl, rfl, rfl, rfl, rfl, rfl, rfl⟩
  intro s f ht hset m taken
  have run : ∀ {w : Nat} {i : Instr} {row : FrameRow} {m1 : Management},
      exec i s = s.onDevice (s.dev.frameOfRow row f s.dev.part.straps) → f.row = row → frameArrives f w →
      s.dev.writeResult f = .ok → s.dev.writeItems s.dev.part.straps (f.writes w) = { s.dev with mgmt := m1 } →
      exec i s = .next (s.withDev (({ s.dev with mgmt := m1 } : Device).endFrame f s.dev .ok)) :=
    fun hx hr ha hok hw => hx.trans ((frameOfRow_next _ ht (fits_of_row hr ha.1) ha.1).trans
      (next_withDev_congr s (writeFrame_mgmt hset.1 hok ha.2.1 _ hw)))
  have item_causes : ∀ {w}, f.row = .causesClear → frameArrives f w → f.item = 0x70 := fun hr ha =>
    (ha.rows (by rw [hr]; decide)).2.2.2.2.2.2.1.mp hr
  refine ⟨fun hr ha => ?_, fun hr ha => ?_, fun hr ha => ?_, fun w hr ha hi hw hrange => ?_⟩
  · have hi := item_causes hr ha
    refine ⟨run rfl hr ha (writeResult_alert ha (by omega)) ?_, alertLine_of_takes ht _⟩
    rw [writes_one, hi]
    rfl
  · have hi := item_causes hr ha
    refine ⟨run rfl hr ha (writeResult_alert ha (by omega)) ?_, alertLine_of_takes ht _⟩
    rw [writes_two, hi]
    rfl
  · have hi : f.item = 0x71 := (ha.rows (by rw [hr]; decide)).2.2.2.2.2.2.2.1.mp hr
    refine ⟨run rfl hr ha (writeResult_alert ha (by omega)) ?_, alertLine_of_takes ht _⟩
    rw [writes_one, hi]
    rfl
  · have hok : s.dev.writeResult f = .ok := by
      refine writeResult_good ha (fun k hk => ?_) fun k hk => writeRefused_of_high _ _ (by omega) (by omega)
      rw [writeGood_iff, ← settingRange_takes (by omega)]
      exact hrange k hk
    exact ⟨settingsAfter m.settings f w, run rfl hr ha hok (writeItems_settings s.dev _ f hi w hw),
      settingsAfter_item m.settings f hi w hw hrange⟩

end Sys2Proof.Machine
end

section
/-! READ frames, and what every frame does to the management port (R187-R189, R191). -/

namespace Sys2Proof.Machine

/-! ### The snapshot and what is shifted out -/

/-- The values that a READ frame of `w` words shifts out: those taken with its item bytes (R189). -/
def Device.readValues (d : Device) (f : Frame) (w : Nat) : List (Option Word) :=
  match d.mgmt.current.bind (·.snapshot) with
  | some taken => taken
  | none => (List.range w).map fun k => d.readItem (f.item + k)

/-- What the port shifts out while the frame is clocked, in the words of R187 to R191. -/
def Device.shiftedNow (d : Device) (f : Frame) : List Byte :=
  d.mgmt.lastResult.code :: match f.words with
    | none => []
    | some w =>
      if f.isWrite = true ∨ f.bytes.length < 3 then []
      else
        let data := (d.readValues f w).flatMap fun v => wordBytes (v.getD 0)
        [0, 0] ++ data ++ (if f.hasCrc then [crc8 (f.bytes.take 3 ++ data)] else [])

/-- MDO has carried the bits of the frame that were clocked (R187). -/
def Device.drivenBy (d : Device) (f : Frame) (m : Management) : Prop :=
  m.mdo = ((List.range f.bytes.length).map fun k => (d.shiftedNow f).getD k 0)
    ∧ m.mdoBits = (List.range f.extraBits.val).map fun k => ((d.shiftedNow f).getD f.bytes.length 0).getLsbD (7 - k)

section
variable {d : Device} {f : Frame} {w : Nat}

theorem snapshotFor_of_short (h : f.isWrite = true ∨ f.bytes.length < 3) : d.snapshotFor f = none := if_pos h

theorem snapshotFor_of_read (h : ¬ (f.isWrite = true ∨ f.bytes.length < 3)) (hw : f.words = some w) :
    d.snapshotFor f = some (d.readValues f w) := by
  unfold Device.snapshotFor Device.readValues
  rw [if_neg h, hw]
  cases d.mgmt.current.bind (·.snapshot) <;> rfl

/-- A frame that declares no length has no snapshot: the one in progress had none either (R189). -/
theorem snapshotFor_of_lengthless (hc : d.continues f = true) (ht : d.mgmt.tied) (hw : f.words = none) :
    d.snapshotFor f = none := by
  have hlen := snapshotFor_length hc ht
  rw [hw, ite_self] at hlen
  exact Option.map_eq_none_iff.mp hlen

theorem snapshotFor_eq (hc : d.continues f = true) (ht : d.mgmt.tied) : d.snapshotFor f
    = if f.isWrite = true ∨ f.bytes.length < 3 then none else f.words.map (d.readValues f) := by
  split
  · next h => exact snapshotFor_of_short h
  · next h =>
    cases hw : f.words with
    | none => exact snapshotFor_of_lengthless hc ht hw
    | some w => exact snapshotFor_of_read h hw

theorem shiftedOut_eq (hc : d.continues f = true) (ht : d.mgmt.tied) : d.shiftedOut f = d.shiftedNow f := by
  unfold Device.shiftedOut Device.shiftedNow
  rw [snapshotFor_eq hc ht]
  cases hw : f.words with
  | none => simp only [Option.map_none, ite_self]
  | some w =>
    by_cases h : f.isWrite = true ∨ f.bytes.length < 3
    · simp only [if_pos h]
    · simp only [if_neg h, Option.map_some]
      rfl

theorem endFrame_driven (hc : d.continues f = true) (ht : d.mgmt.tied) (e : Device) (r : FrameResult) :
    d.drivenBy f (e.endFrame f d r).mgmt := by
  unfold Device.drivenBy
  rw [← shiftedOut_eq hc ht]
  exact ⟨rfl, rfl⟩

theorem frameGoesOn_driven (hc : d.continues f = true) (ht : d.mgmt.tied) : d.drivenBy f (d.frameGoesOn f).mgmt := by
  unfold Device.drivenBy
  rw [← shiftedOut_eq hc ht]
  exact ⟨rfl, rfl⟩

end

/-! ### The result of a READ frame -/

section
variable {d : Device} {f : Frame} {w : Nat}

theorem row_read_length (hr : f.row = .read) : 1 ≤ f.bytes.length := by
  by_contra h
  have h0 : f.bytes.length = 0 := by omega
  unfold Frame.row at hr
  rw [if_pos h0] at hr
  exact absurd hr nofun

theorem row_read_isWrite (hr : f.row = .read) : f.isWrite = false := by
  have hl := row_read_length hr
  by_contra hw
  unfold Frame.row at hr
  rw [if_neg (by omega), if_neg (by simpa using hw)] at hr
  split_ifs at hr

theorem readResult_lengthless (hw : f.words = none) : d.readResult f = .length := by
  unfold Device.readResult
  rw [hw]

theorem readResult_short (hw : f.words = some w) (hs : f.tooShort w = true) : d.readResult f = .short := by
  unfold Device.readResult
  simp only [hw, hs, if_true]

theorem readResult_long (hw : f.words = some w) (hs : f.tooShort w = false) (hl : f.tooLong w = true) :
    d.readResult f = .length := by
  unfold Device.readResult
  simp only [hw, hs, hl, Bool.false_eq_true, if_false, if_true]

/-- A READ of its length is BAD_ITEM where one of its numbers names no item (R189). -/
theorem readResult_full (hr : f.row = .read) (hw : f.words = some w) (hs : f.tooShort w = false)
    (hl : f.tooLong w = false) : d.readResult f = if none ∈ d.readValues f w then .badItem else .ok := by
  have hlen : ¬ (f.isWrite = true ∨ f.bytes.length < 3) := by
    have h1 := of_decide_eq_false hs
    unfold Frame.declared at h1
    rw [row_read_isWrite hr]
    simp only [Bool.false_eq_true, false_or]
    omega
  have hany : (d.readValues f w).any Option.isNone = true ↔ none ∈ d.readValues f w := by
    simp only [List.any_eq_true, Option.isNone_iff_eq_none, exists_eq_right]
  unfold Device.readResult
  simp only [hw, hs, hl, Bool.false_eq_true, if_false]
  rw [snapshotFor_of_read hlen hw, Option.getD_some]
  exact ite_congr (propext hany) (fun _ => rfl) fun _ => rfl

end

/-! ### The frame state -/

theorem framePhase_cases (f : Frame) :
    (f.bytes.length = 0 → framePhase f = .command)
      ∧ (1 ≤ f.bytes.length → f.bytes.length ≤ 2 → framePhase f = .item)
      ∧ (3 ≤ f.bytes.length → f.words = none → framePhase f = .data)
      ∧ ∀ w, 3 ≤ f.bytes.length → f.words = some w →
        (f.bytes.length < 3 + 4 * w → framePhase f = .data)
        ∧ (3 + 4 * w ≤ f.bytes.length → f.bytes.length < f.declared w → framePhase f = .check)
        ∧ (f.declared w ≤ f.bytes.length → framePhase f = .excess) := by
  unfold framePhase
  extract_lets n
  have hn : n = f.bytes.length := rfl
  refine ⟨fun h => if_pos h, fun h1 h2 => ?_, fun h hw => ?_, fun w h hw => ⟨fun hd => ?_, fun hd hc => ?_, fun hc => ?_⟩⟩
  · rw [if_neg (by omega), if_pos (by omega)]
  · rw [if_neg (by omega), if_neg (by omega), hw]
  · simp only [hw]
    rw [if_neg (by omega), if_neg (by omega), if_pos (by omega)]
  · simp only [hw]
    rw [if_neg (by omega), if_neg (by omega), if_neg (by omega), if_pos (by omega)]
  · have hle : 3 + 4 * w ≤ f.declared w := Nat.le_add_right _ _
    simp only [hw]
    rw [if_neg (by omega), if_neg (by omega), if_neg (by omega), if_neg (by omega)]

/-! ### The commands that carry frames -/

/-- A frame row's command clocks the frame that it carries (R186, R187). -/
theorem exec_of_frameCarried {i : Instr} {f : Frame} (h : frameCarried i = some f) (s : State) :
    ∃ ends, exec i s = s.onDevice (s.dev.clockFrame f ends) := by
  have written : ∀ (row : FrameRow) (g : Frame) (st : Straps), (if g.fits row then some g else none) = some f →
      s.onDevice (s.dev.frameOfRow row g st) = s.onDevice (s.dev.clockFrame f fun x => x.writeFrame f st) :=
    fun row g st k => by
      obtain ⟨hfit, hgf⟩ := Option.ite_none_right_eq_some.mp k
      obtain rfl := Option.some.inj hgf
      exact congrArg s.onDevice (if_pos hfit)
  cases i
  case managementReadFrame g =>
    obtain ⟨hfit, hgf⟩ := Option.ite_none_right_eq_some.mp h
    obtain rfl := Option.some.inj hgf
    exact ⟨_, if_pos hfit⟩
  case pendingTableWrite g => exact ⟨_, written .pendingTable g _ h⟩
  case activeTableWrite g => exact ⟨_, written .activeTable g _ h⟩
  case applyRequest g => exact ⟨_, written .apply g _ h⟩
  case formatCommand g => exact ⟨_, written .format g _ h⟩
  case holdCommand g => exact ⟨_, written .hold g _ h⟩
  case releaseCommand g st => exact ⟨_, written .release g st h⟩
  case alertCausesClear g => exact ⟨_, written .causesClear g _ h⟩
  case alertMaskWrite g => exact ⟨_, written .maskWrite g _ h⟩
  case settingWrite g => exact ⟨_, written .setting g _ h⟩
  all_goals exact absurd h nofun

section
variable {s : State} {f : Frame} {ends : Device → Device}

theorem clockFrame_ends (ht : s.takes f) (he : f.ended = true) : s.dev.clockFrame f ends = .next (ends s.dev) :=
  clockFrame_eq_next.mpr (Or.inr ⟨ht.1, ht.2, (if_pos he).symm⟩)

theorem clockFrame_goesOn (ht : s.takes f) (he : f.ended = false) : s.dev.clockFrame f ends = .next (s.dev.frameGoesOn f) :=
  clockFrame_eq_next.mpr (Or.inr ⟨ht.1, ht.2, (if_neg (by simp [he])).symm⟩)

theorem clockFrame_stopped (hs : s.dev.part.state = .stopped) : s.dev.clockFrame f ends = .next s.dev := if_pos hs

theorem clockFrame_refused (hs : s.dev.part.state ≠ .stopped) (hc : s.dev.continues f = false) :
    s.dev.clockFrame f ends = .refused .eventCannotOccur := by
  unfold Device.clockFrame
  rw [if_neg hs, if_neg (by simp [hc])]

end

theorem exec_managementReadFrame {s : State} {f : Frame} (ht : s.takes f) (hr : f.row = .read) (he : f.ended = true) :
    exec (.managementReadFrame f) s = .next (s.withDev (s.dev.endFrame f s.dev (s.dev.readResult f))) := by
  have hx : exec (.managementReadFrame f) s = s.onDevice (s.dev.clockFrame f fun d => d.readFrame f) :=
    if_pos (fits_of_row hr he)
  rw [hx, clockFrame_ends ht he]
  rfl

/-- The frame of a cut command byte (R188). -/
def cutFrame (bits : Fin 8) : Frame := { bytes := [], extraBits := bits, ended := true }

theorem exec_frameEnds (s : State) (bits : Fin 8) : exec (.frameEndsBeforeCommandByte bits) s
    = s.onDevice (s.dev.clockFrame (cutFrame bits) fun d => d.brokenFrame (cutFrame bits)) := rfl

/-- Settles O57: a frame ends or goes on by `Device.clockFrame`, and what it shifts out is that of its snapshot. -/
theorem framesRead : Obligations.FramesRead := by
  unfold Obligations.FramesRead
  intro values shifted driven
  have driven_iff : ∀ s f m, driven s f m ↔ s.dev.drivenBy f m := fun s f m => Iff.rfl
  refine ⟨fun s f hr he ht hinv => ?_, fun i s f hi he ht hinv => ?_, framePhase_cases, fun s bits ht => ?_,
    fun i s f hi hs hc => ?_, fun s hs => ⟨fun bits => ?_, fun i f hi => ?_⟩, fun s f e r ht hinv => ?_, rfl,
    frameRows_holds⟩
  · refine ⟨_, s.dev.readResult f, exec_managementReadFrame ht hr he, endFrame_frame _ _ _ _, rfl,
      (driven_iff _ _ _).mpr (endFrame_driven ht.2 hinv _ _), readResult_lengthless,
      fun w hw => ⟨readResult_short hw, readResult_long hw, fun hs hl hn => ?_, fun hs hl hn => ?_⟩⟩
    · exact (readResult_full hr hw hs hl).trans (if_pos hn)
    · exact (readResult_full hr hw hs hl).trans (if_neg hn)
  · obtain ⟨ends, hx⟩ := exec_of_frameCarried hi s
    rw [clockFrame_goesOn ht he] at hx
    refine ⟨_, hx, frameGoesOn_frame s.dev f, (driven_iff _ _ _).mpr (frameGoesOn_driven ht.2 hinv), ?_⟩
    have hsnap := snapshotFor_eq ht.2 hinv
    exact congrArg (fun v => { (s.dev.frameGoesOn f).mgmt with current := some { bytes := f.bytes, snapshot := v } }) hsnap
  · refine ⟨s.dev.brokenFrame (cutFrame bits), ?_, brokenFrame_frame _ _, rfl⟩
    rw [exec_frameEnds, clockFrame_ends (f := cutFrame bits) ht rfl]
    rfl
  · obtain ⟨ends, hx⟩ := exec_of_frameCarried hi s
    rw [hx, clockFrame_refused hs hc]
    rfl
  · rw [exec_frameEnds, clockFrame_stopped hs]
    rfl
  · obtain ⟨ends, hx⟩ := exec_of_frameCarried hi s
    rw [hx, clockFrame_stopped hs]
    rfl
  · exact ⟨endFrame_frame _ _ _ _, (driven_iff _ _ _).mpr (endFrame_driven ht.2 hinv _ _), rfl⟩

end Sys2Proof.Machine
end

section
/-! The formats of the journal: the check byte, the record header and the anchor line (R104, R105, R118). -/

namespace Sys2Proof.Machine

/-! ### The check byte -/

/-- The bits that leave the register at the top in `n` shifts, put behind `q`. -/
def crcQuotientBits : Nat → Byte → Byte → Byte
  | 0, q, _ => q
  | n + 1, q, r => crcQuotientBits n (q <<< 1 ||| if r.msb then 1 else 0) (crcShift r)

/-- The bits that leave the register while a byte is combined into it: the quotient of the division by the generator. -/
def crcQuotient (x : Byte) : Byte := crcQuotientBits 8 0 x

theorem crcByte_zero (r b : Byte) : crcByte (r ^^^ b) 0 = crcByte r b := by
  unfold crcByte
  rw [show r ^^^ b ^^^ 0 = r ^^^ b from BitVec.xor_zero]

theorem crc8_append (bs : List Byte) (b : Byte) : crc8 (bs ++ [b]) = crcByte (crc8 bs ^^^ b) 0 := by
  rw [crcByte_zero]
  unfold crc8
  rw [List.foldl_append, List.foldl_cons, List.foldl_nil]

/-- Eight shifts of the register leave the remainder of the division by the generator (R105). -/
theorem crcByte_remainder : ∀ x : Byte,
    (x.zeroExtend 16 <<< 8) ^^^ (crcByte x 0).zeroExtend 16 = timesGenerator (crcQuotient x) := by decide +kernel

/-! ### The header of a record -/

section
variable (a b c d : Byte)

theorem headerWord0_bytes : (headerWord0 a b c d).extractLsb' 24 8 = a ∧ (headerWord0 a b c d).extractLsb' 16 8 = b
    ∧ (headerWord0 a b c d).extractLsb' 8 8 = c ∧ (headerWord0 a b c d).extractLsb' 0 8 = d := by
  unfold headerWord0
  refine ⟨?_, ?_, ?_, ?_⟩ <;> refine BitVec.eq_of_getLsbD_eq fun i hi => ?_ <;>
    simp only [BitVec.getLsbD_extractLsb', BitVec.getLsbD_append, hi, decide_true, Bool.true_and]
  · rw [if_neg (by omega), if_neg (by omega), if_neg (by omega)]
    congr 1
    omega
  · rw [if_neg (by omega), if_neg (by omega), if_pos (by omega)]
    congr 1
    omega
  · rw [if_neg (by omega), if_pos (by omega)]
    congr 1
    omega
  · rw [if_pos (by omega)]
    congr 1
    omega

/-- The check byte is none of the bytes that it checks (R105). -/
theorem recordCrc_header (e : Byte) (ws : List Word) :
    recordCrc (headerWord0 a b c d :: ws) = recordCrc (headerWord0 a b c e :: ws) := by
  have htake : ∀ x, (wordBytes (headerWord0 a b c x)).take 3 = [a, b, c] := fun x => by
    obtain ⟨h1, h2, h3, _⟩ := headerWord0_bytes a b c x
    unfold wordBytes
    rw [h1, h2, h3]
    rfl
  exact congrArg (fun bs => crc8 (bs ++ ws.flatMap wordBytes)) ((htake d).trans (htake e).symm)

end

/-- The record that is formed from the fields given (R104). -/
def recordFormed (kind ctx byte1 : Byte) (len : Nat) (seq inst line link : Word) (images : List Word) : List Word :=
  recordHeader kind ctx byte1 len seq inst line link images ++ images

theorem recordFormed_eq (kind ctx byte1 : Byte) (len : Nat) (seq inst line link : Word) (images : List Word) :
    ∃ crc, crc = recordCrc (headerWord0 kind ctx byte1 crc :: ([BitVec.ofNat 32 len, seq, inst, line, link] ++ images))
      ∧ recordFormed kind ctx byte1 len seq inst line link images
        = headerWord0 kind ctx byte1 crc :: ([BitVec.ofNat 32 len, seq, inst, line, link] ++ images) :=
  ⟨recordCrc (headerWord0 kind ctx byte1 0 :: ([BitVec.ofNat 32 len, seq, inst, line, link] ++ images)),
    recordCrc_header kind ctx byte1 _ _ _, rfl⟩

/-- A record reads back as what it was formed from. -/
theorem recordFormed_reads (kind ctx byte1 : Byte) {len : Nat} (seq inst line link : Word) (images : List Word)
    (hlen : len < 2 ^ 32) :
    let ws := recordFormed kind ctx byte1 len seq inst line link images
    recordChecks ws = true ∧ ws.length = 6 + images.length ∧ ws.drop 6 = images ∧ recKindByte ws = kind
      ∧ recCtxByte ws = ctx ∧ recByte1 ws = byte1 ∧ recLength ws = len ∧ recSeq ws = seq ∧ recInst ws = inst
      ∧ recLine ws = line ∧ recLink ws = link := by
  obtain ⟨crc, hcrc, hws⟩ := recordFormed_eq kind ctx byte1 len seq inst line link images
  intro ws
  obtain ⟨hkind, hctx, hbyte1, hcheck⟩ := headerWord0_bytes kind ctx byte1 crc
  have hws : ws = headerWord0 kind ctx byte1 crc :: ([BitVec.ofNat 32 len, seq, inst, line, link] ++ images) := hws
  rw [hws]
  refine ⟨?_, ?_, rfl, hkind, hctx, hbyte1, ?_, rfl, rfl, rfl, rfl⟩
  · exact decide_eq_true (hcrc.symm.trans hcheck.symm)
  · simp only [List.length_cons, List.length_append, List.length_nil]
    omega
  · exact (BitVec.toNat_ofNat len 32).trans (Nat.mod_eq_of_lt hlen)

/-! ### The anchor line -/

theorem zeroExtend_low (c : Byte) : (c.zeroExtend 32 : Word).extractLsb' 0 8 = c := by
  refine BitVec.eq_of_getLsbD_eq fun i hi => ?_
  have hi32 : i < 32 := by omega
  simp [hi, hi32]

theorem anchorWords_valid {ring tail : Nat} (seq inst : Word) (ht : tail < ring) (hr : ring < 2 ^ 32) :
    let ws := anchorWords ring tail seq inst
    ws.length = 8 ∧ ws.getD 0 0 = 0x5A3C0A17 ∧ anchorCondition ring ws = .valid ∧ (ws.getD 2 0).toNat = tail
      ∧ ws.getD 3 0 = seq ∧ ws.getD 4 0 = inst := by
  intro ws
  have htail : (ws.getD 2 0).toNat = tail := (BitVec.toNat_ofNat tail 32).trans (Nat.mod_eq_of_lt (ht.trans hr))
  have hring : (ws.getD 1 0).toNat = ring := (BitVec.toNat_ofNat ring 32).trans (Nat.mod_eq_of_lt hr)
  exact ⟨rfl, rfl, (anchorCondition_valid ring ws).mpr ⟨rfl, zeroExtend_low _, hring, htail.symm ▸ ht⟩, htail, rfl, rfl⟩

theorem setCondition_valid {d : Device} {ws : List Word} (h : anchorCondition d.ring ws = .valid) :
    d.setCondition ws = { d with journal := { d.journal with
      cond := .valid, head := (ws.getD 2 0).toNat, liveTail := (ws.getD 2 0).toNat, anchoredTail := (ws.getD 2 0).toNat
      nextSeq := ws.getD 3 0, nextInst := ws.getD 4 0 } } := by
  unfold Device.setCondition
  rw [h]

/-- Settles O43: the register divides by the generator, the header's check byte is left out of what it checks, and the
anchor line's stands behind it. -/
theorem formatsReadBack : Obligations.FormatsReadBack := by
  refine ⟨rfl, fun bs b => ⟨crcQuotient (crc8 bs ^^^ b), ?_⟩,
    fun kind ctx byte1 len seq inst line link images hlen =>
      recordFormed_reads kind ctx byte1 seq inst line link images hlen, fun d tail seq inst ht hr => ?_⟩
  · rw [crc8_append]
    exact crcByte_remainder _
  · intro ws
    obtain ⟨hlen, hsig, hvalid, htail, hseq, hinst⟩ := anchorWords_valid seq inst ht hr
    refine ⟨hlen, hsig, ?_⟩
    rw [setCondition_valid hvalid, htail, hseq, hinst]

end Sys2Proof.Machine
end

section
/-! Where a record's writes land in the ring (R101, R109). -/

namespace Sys2Proof.Machine

/-! ### Lines of the ring -/

theorem journalBase_aligned (st : Straps) : journalBase st % 32 = 0 := by
  obtain ⟨m, j⟩ := st
  revert m j
  decide

theorem ringAddr_succ (st : Straps) (p : Nat) : ringAddr st (p + 1) = ringAddr st p + 4 := by
  unfold ringAddr
  omega

theorem ringLine_eq (st : Straps) (p : Nat) : ringLine st p = journalBase st + 32 + 32 * (p / 8) := by
  have h := journalBase_aligned st
  unfold ringLine lineOf ringAddr
  omega

theorem ringLine_mono (st : Straps) {p q : Nat} (h : p ≤ q) : ringLine st p ≤ ringLine st q := by
  rw [ringLine_eq, ringLine_eq]
  omega

theorem ringLine_succ_iff (st : Straps) (p : Nat) : ringLine st (p + 1) = ringLine st p ↔ (p + 1) % 8 ≠ 0 := by
  rw [ringLine_eq, ringLine_eq]
  omega

theorem ringAddr_in_line (st : Straps) (p : Nat) :
    ringLine st p + 4 * (wordPos (ringAddr st p)).val = ringAddr st p := by
  have h := journalBase_aligned st
  rw [ringLine_eq]
  have hp : (wordPos (ringAddr st p)).val = ringAddr st p / 4 % 8 := rfl
  rw [hp]
  unfold ringAddr
  omega

/-! ### The writes of a list of words -/

section
variable (st : Straps) (pos : Nat)

/-- The write of one word of the ring. -/
def ringWord (w : Word) : WordWrite := { pos := wordPos (ringAddr st pos), lanes := 15, data := w }

/-- The writes of a word and those behind it: a write of the line of its own, or the first of theirs with it. -/
theorem ringWrites_cons (w : Word) (ws : List Word) :
    (ringWrites st pos (w :: ws) = { line := ringLine st pos, words := [ringWord st pos w] } :: ringWrites st (pos + 1) ws
      ∧ ∀ lw ∈ (ringWrites st (pos + 1) ws).head?, lw.line ≠ ringLine st pos)
    ∨ ∃ lw rest, ringWrites st (pos + 1) ws = lw :: rest ∧ lw.line = ringLine st pos
      ∧ ringWrites st pos (w :: ws) = { line := ringLine st pos, words := ringWord st pos w :: lw.words } :: rest := by
  rw [ringWrites]
  cases hrest : ringWrites st (pos + 1) ws with
  | nil => exact Or.inl ⟨rfl, fun _ h => absurd h nofun⟩
  | cons lw rest =>
    by_cases hl : lw.line = ringLine st pos
    · refine Or.inr ⟨lw, rest, rfl, hl, ?_⟩
      simp only [if_pos hl]
      rw [← hl]
      rfl
    · refine Or.inl ⟨if_neg hl, fun x hx => ?_⟩
      obtain rfl := Option.some.inj hx
      exact hl

/-- The writes begin with the line of their first word. -/
theorem ringWrites_head (w : Word) (ws : List Word) :
    ∃ lw rest, ringWrites st pos (w :: ws) = lw :: rest ∧ lw.line = ringLine st pos := by
  rcases ringWrites_cons st pos w ws with ⟨h, _⟩ | ⟨lw, rest, _, _, h⟩
  · exact ⟨_, _, h, rfl⟩
  · exact ⟨_, _, h, rfl⟩

end

/-- No line of the writes lies before that of the first word, and the lines rise. -/
theorem ringWrites_rise (st : Straps) (ws : List Word) : ∀ pos,
    (∀ lw ∈ ringWrites st pos ws, ringLine st pos ≤ lw.line)
      ∧ ((ringWrites st pos ws).map (·.line)).Pairwise (· < ·) := by
  induction ws with
  | nil => exact fun pos => ⟨fun _ h => absurd h List.not_mem_nil, List.Pairwise.nil⟩
  | cons w ws ih =>
    intro pos
    obtain ⟨hle, hrise⟩ := ih (pos + 1)
    have hmono := ringLine_mono st (Nat.le_succ pos)
    rcases ringWrites_cons st pos w ws with ⟨h, hne⟩ | ⟨lw, rest, hrest, hl, h⟩
    · rw [h]
      refine ⟨fun x hx => ?_, ?_⟩
      · rcases List.mem_cons.mp hx with rfl | hx
        · exact le_rfl
        · exact hmono.trans (hle x hx)
      · rw [List.map_cons, List.pairwise_cons]
        refine ⟨fun l hl => ?_, hrise⟩
        obtain ⟨x, hx, rfl⟩ := List.mem_map.mp hl
        refine lt_of_le_of_ne (hmono.trans (hle x hx)) fun he => ?_
        cases ws with
        | nil => exact absurd hx List.not_mem_nil
        | cons v vs =>
          obtain ⟨y, rest, hy, hyl⟩ := ringWrites_head st (pos + 1) v vs
          have hfirst := hne y (by rw [hy]; rfl)
          have hge := hle x hx
          have hlt := hmono.lt_of_ne fun e => hfirst (hyl.trans e.symm)
          exact absurd he (hlt.trans_le hge).ne
    · rw [hrest] at hle hrise
      rw [h]
      refine ⟨fun x hx => ?_, ?_⟩
      · rcases List.mem_cons.mp hx with rfl | hx
        · exact le_rfl
        · exact hmono.trans (hle x (List.mem_cons_of_mem _ hx))
      · rw [List.map_cons] at hrise ⊢
        rwa [hl] at hrise

/-- The number of the writes: one more at each new line. -/
theorem ringWrites_length_cons (st : Straps) (pos : Nat) (w v : Word) (ws : List Word) :
    (ringWrites st pos (w :: v :: ws)).length
      = (ringWrites st (pos + 1) (v :: ws)).length + if (pos + 1) % 8 = 0 then 1 else 0 := by
  have hiff := ringLine_succ_iff st pos
  obtain ⟨lw, rest, hlw, hl⟩ := ringWrites_head st (pos + 1) v ws
  rcases ringWrites_cons st pos w (v :: ws) with ⟨h, hne⟩ | ⟨x, xs, hx, hxl, h⟩
  · have hnew := hne lw (by rw [hlw]; rfl)
    rw [hl] at hnew
    rw [h, if_pos (by tauto)]
    rfl
  · rw [hx] at hlw
    obtain ⟨rfl, rfl⟩ := List.cons.inj hlw
    rw [h, hx, if_neg (hiff.mp (hl.symm.trans hxl))]
    rfl

theorem ringWrites_length_one (st : Straps) (pos : Nat) (w : Word) : (ringWrites st pos [w]).length = 1 := rfl

theorem ringWrites_header_length (st : Straps) (pos : Nat) {ws : List Word} (h : ws.length = 6) :
    (ringWrites st pos ws).length = if pos % 8 ≤ 2 then 1 else 2 := by
  obtain ⟨a, b, c, d, e, f, rfl⟩ : ∃ a b c d e f, ws = [a, b, c, d, e, f] := by
    match ws, h with
    | [a, b, c, d, e, f], _ => exact ⟨a, b, c, d, e, f, rfl⟩
  simp only [ringWrites_length_cons, ringWrites_length_one]
  split_ifs <;> omega

theorem ringWrites_words (st : Straps) (ws : List Word) : ∀ pos, ∀ lw ∈ ringWrites st pos ws,
    lw.words ≠ [] ∧ ∀ x ∈ lw.words, x.lanes = 15 := by
  induction ws with
  | nil => exact fun pos _ h => absurd h List.not_mem_nil
  | cons w ws ih =>
    intro pos lw hlw
    rcases ringWrites_cons st pos w ws with ⟨h, _⟩ | ⟨x, rest, hrest, _, h⟩
    · rw [h] at hlw
      rcases List.mem_cons.mp hlw with rfl | hlw
      · exact ⟨nofun, fun y hy => by rw [List.mem_singleton.mp hy]; rfl⟩
      · exact ih _ _ hlw
    · rw [h] at hlw
      obtain ⟨_, hx⟩ := ih (pos + 1) x (by rw [hrest]; exact List.mem_cons_self)
      rcases List.mem_cons.mp hlw with rfl | hlw
      · refine ⟨nofun, fun y hy => ?_⟩
        rcases List.mem_cons.mp hy with rfl | hy
        · rfl
        · exact hx y hy
      · exact ih (pos + 1) lw (by rw [hrest]; exact List.mem_cons_of_mem _ hlw)

/-! ### What they leave of each byte -/

theorem writeLine_cons (m : Memory) (line : Nat) (x : WordWrite) (xs : List WordWrite) :
    m.writeLine { line := line, words := x :: xs }
      = (m.writeLine { line := line, words := [x] }).writeLine { line := line, words := xs } := by
  have hb : LineWrite.bytes { line := line, words := x :: xs }
      = LineWrite.bytes { line := line, words := [x] } ++ LineWrite.bytes { line := line, words := xs } := by
    unfold LineWrite.bytes
    rw [← List.flatMap_append]
    rfl
  unfold Memory.writeLine Memory.writeBytes
  rw [hb, List.foldl_append]

/-- The writes of a word and those behind it come to the write of the word and then theirs. -/
theorem ringWrites_foldl (m : Memory) (st : Straps) (pos : Nat) (w : Word) (ws : List Word) :
    (ringWrites st pos (w :: ws)).foldl Memory.writeLine m = (ringWrites st (pos + 1) ws).foldl Memory.writeLine
      (m.writeLine { line := ringLine st pos, words := [ringWord st pos w] }) := by
  rcases ringWrites_cons st pos w ws with ⟨h, _⟩ | ⟨lw, rest, hrest, hl, h⟩
  · rw [h]
    rfl
  · rw [h, hrest, List.foldl_cons, List.foldl_cons, writeLine_cons, ← hl]

section
variable {m : Memory} (st : Straps) (pos : Nat)

theorem ringWord_wf (hm : m.wf = true) (w : Word) :
    (m.writeLine { line := ringLine st pos, words := [ringWord st pos w] }).wf = true := m.writeLine_wf _ hm

theorem read_ringWord (hm : m.wf = true) (w : Word) (k : Fin 4) :
    (m.writeLine { line := ringLine st pos, words := [ringWord st pos w] }).read (ringAddr st pos + k.val)
      = w.extractLsb' (8 * k.val) 8 := by
  have hlanes : ∀ k : Fin 4, (15 : Lanes).getLsbD k.val = true := by decide
  obtain ⟨hset, _⟩ := lineWriteSetsItsLanes m { line := ringLine st pos, words := [ringWord st pos w] } hm (by simp)
  rw [← ringAddr_in_line st pos]
  exact hset _ List.mem_cons_self k (hlanes k)

theorem read_ringWord_other (hm : m.wf = true) (w : Word) {a : Nat} (ha : a < ringAddr st pos ∨ ringAddr st (pos + 1) ≤ a) :
    (m.writeLine { line := ringLine st pos, words := [ringWord st pos w] }).read a = m.read a := by
  obtain ⟨_, hkept⟩ := lineWriteSetsItsLanes m { line := ringLine st pos, words := [ringWord st pos w] } hm (by simp)
  refine hkept a fun x hx k _ => ?_
  have hline := ringAddr_in_line st pos
  rw [ringAddr_succ] at ha
  obtain rfl := List.mem_singleton.mp hx
  have hk := k.isLt
  change a ≠ ringLine st pos + 4 * (wordPos (ringAddr st pos)).val + k.val
  omega

end

theorem ringWrites_wf (st : Straps) (ws : List Word) : ∀ (pos : Nat) (m : Memory), m.wf = true →
    ((ringWrites st pos ws).foldl Memory.writeLine m).wf = true := by
  induction ws with
  | nil => exact fun _ _ h => h
  | cons w ws ih =>
    intro pos m hm
    rw [ringWrites_foldl]
    exact ih _ _ (ringWord_wf st pos hm w)

/-- Behind and before the words no byte differs. -/
theorem read_ringWrites_other (st : Straps) (ws : List Word) (a : Nat) : ∀ (pos : Nat) (m : Memory), m.wf = true →
    (a < ringAddr st pos ∨ ringAddr st (pos + ws.length) ≤ a) →
    ((ringWrites st pos ws).foldl Memory.writeLine m).read a = m.read a := by
  induction ws with
  | nil => exact fun _ _ _ _ => rfl
  | cons w ws ih =>
    intro pos m hm ha
    have hsucc := ringAddr_succ st pos
    have hend : ringAddr st (pos + 1) ≤ ringAddr st (pos + (ws.length + 1)) := by
      unfold ringAddr
      omega
    rw [ringWrites_foldl, ih (pos + 1) _ (ringWord_wf st pos hm w), read_ringWord_other st pos hm w]
    · exact ha.imp_right fun h => hend.trans h
    · rw [show pos + 1 + ws.length = pos + (ws.length + 1) by omega]
      exact ha.imp_left fun h => by omega

theorem word_of_bytes (w : Word) :
    w.extractLsb' (8 * 3) 8 ++ w.extractLsb' (8 * 2) 8 ++ w.extractLsb' (8 * 1) 8 ++ w.extractLsb' (8 * 0) 8 = w := by
  refine BitVec.eq_of_getLsbD_eq fun i hi => ?_
  simp only [BitVec.getLsbD_append, BitVec.getLsbD_extractLsb']
  split_ifs with h1 h2 h3
  all_goals
    rw [decide_eq_true (by omega), Bool.true_and]
    congr 1
    omega

theorem readWord_of_bytes {m : Memory} {a : Nat} {w : Word}
    (h : ∀ k : Fin 4, m.read (a + k.val) = w.extractLsb' (8 * k.val) 8) : m.readWord a = w := by
  unfold Memory.readWord
  have h0 := h 0
  have h1 := h 1
  have h2 := h 2
  have h3 := h 3
  simp only [Fin.val_zero, Fin.val_one, Fin.val_two, Nat.add_zero] at h0 h1 h2
  rw [h0, h1, h2, show m.read (a + 3) = _ from h3]
  exact word_of_bytes w

theorem readWord_ringWrites (st : Straps) (ws : List Word) : ∀ (pos : Nat) (m : Memory) (k : Nat), m.wf = true →
    k < ws.length → ((ringWrites st pos ws).foldl Memory.writeLine m).readWord (ringAddr st (pos + k)) = ws.getD k 0 := by
  induction ws with
  | nil => exact fun _ _ k _ hk => absurd hk (Nat.not_lt_zero k)
  | cons w ws ih =>
    intro pos m k hm hk
    rw [ringWrites_foldl]
    have hwf := ringWord_wf st pos hm w
    cases k with
    | zero =>
      refine readWord_of_bytes fun j => ?_
      have hj := j.isLt
      have hbefore : ringAddr st pos + j.val < ringAddr st (pos + 1) := by
        rw [ringAddr_succ]
        omega
      exact (read_ringWrites_other st ws _ (pos + 1) _ hwf (Or.inl hbefore)).trans (read_ringWord st pos hm w j)
    | succ k =>
      rw [show pos + (k + 1) = pos + 1 + k by omega, List.getD_cons_succ]
      exact ih (pos + 1) _ k hwf (Nat.lt_of_succ_lt_succ hk)

/-- Words that a run of writes leaves alone read as before. -/
theorem readWord_ringWrites_other {m : Memory} (hm : m.wf = true) (st : Straps) (pos : Nat) (ws : List Word) {p : Nat}
    (hp : p < pos ∨ pos + ws.length ≤ p) :
    ((ringWrites st pos ws).foldl Memory.writeLine m).readWord (ringAddr st p) = m.readWord (ringAddr st p) := by
  have hread : ∀ a, ringAddr st p ≤ a → a < ringAddr st p + 4 →
      ((ringWrites st pos ws).foldl Memory.writeLine m).read a = m.read a := fun a h1 h2 => by
    refine read_ringWrites_other st ws _ pos m hm ?_
    unfold ringAddr at h1 h2 ⊢
    omega
  unfold Memory.readWord
  rw [hread _ (by omega) (by omega), hread _ (by omega) (by omega), hread _ (by omega) (by omega),
    hread _ (by omega) (by omega)]

/-- Settles O44: the header is written behind the images, and the two lie side by side in the ring. -/
theorem recordLandsInTheRing : Obligations.RecordLandsInTheRing := by
  intro m st pos header images hm hheader _ m1
  have hsplit : recordWrites st pos header images = ringWrites st (pos + 6) images ++ ringWrites st pos header := rfl
  have hm1 : m1 = (ringWrites st pos header).foldl Memory.writeLine
      ((ringWrites st (pos + 6) images).foldl Memory.writeLine m) := by
    change (recordWrites st pos header images).foldl Memory.writeLine m = _
    rw [hsplit, List.foldl_append]
  have hwf := ringWrites_wf st images (pos + 6) m hm
  refine ⟨hsplit, ringWrites_header_length st pos hheader, (ringWrites_rise st images _).2,
    (ringWrites_rise st header _).2, fun w hw => ?_, fun k hk => ?_, fun a ha => ?_⟩
  · rcases List.mem_append.mp (hsplit ▸ hw) with hw | hw
    · exact ringWrites_words st images _ w hw
    · exact ringWrites_words st header _ w hw
  · rw [hm1]
    by_cases h6 : k < 6
    · rw [readWord_ringWrites st header pos _ k hwf (by omega), List.getD_append _ _ _ _ (by omega)]
    · rw [readWord_ringWrites_other hwf st pos header (Or.inr (by omega)), List.getD_append_right _ _ _ _ (by omega),
        hheader, show pos + k = pos + 6 + (k - 6) by omega]
      exact readWord_ringWrites st images (pos + 6) m (k - 6) hm (by omega)
  · have hmid : ringAddr st (pos + 6) ≤ ringAddr st (pos + 6 + images.length) := by
      unfold ringAddr
      omega
    have hfirst : ringAddr st pos ≤ ringAddr st (pos + 6) := by
      unfold ringAddr
      omega
    rw [hm1, read_ringWrites_other st header a pos _ hwf (by rw [hheader]; omega),
      read_ringWrites_other st images a (pos + 6) m hm (by omega)]

end Sys2Proof.Machine
end

section
/-! One move of the scanner: the words it needs, the tests in their order, and the record that it takes (R177, R178). -/

namespace Sys2Proof.Machine

/-! ### The stages of a move -/

/-- The tests 3 to 10, and the taking of the record. -/
def scanRest (st : Straps) (k : RecKind) (s : Scan) : ScanMove :=
  match s.failure st k s.words with
  | some why => .stop s why
  | none => .on (s.take (ringLength st) k s.words)

/-- Test 2, and then the rest of the record. -/
def scanLength (st : Straps) (k : RecKind) (s : Scan) : ScanMove :=
  if !lengthGood (ringLength st) s.pos k s.words then .stop s .length
  else s.need st (wordsToScan k s.words) (scanRest st k)

/-- Test 1, and then the length. -/
def scanKind (st : Straps) (s : Scan) : ScanMove :=
  match kindOfCode (recKindByte s.words) with
  | none => .stop s .kind
  | some k => s.need st 2 (scanLength st k)

section
variable {st : Straps} {s : Scan} {n : Nat} {next : Scan → ScanMove}

theorem move_gap (h : ringLength st - s.pos < 6) :
    s.move st = .on { s with gap := ringLength st - s.pos, pos := 0, words := [] } := if_pos h

theorem move_eq (h : 6 ≤ ringLength st - s.pos) : s.move st = s.need st 1 (scanKind st) :=
  (if_neg (not_lt.mpr h)).trans rfl

theorem need_of_enough (h : n ≤ s.words.length) : s.need st n next = next s := by
  have hwords : s.words ++ (s.inHand st (s.pos + s.words.length)).take (n - s.words.length) = s.words := by
    rw [Nat.sub_eq_zero_of_le h, List.take_zero, List.append_nil]
  unfold Scan.need
  simp only [hwords]
  rw [if_neg (not_lt.mpr h)]

theorem inHand_of_other {p : Nat} (h : ∀ l ws, s.lineInHand = some (l, ws) → l ≠ ringLine st p) : s.inHand st p = [] := by
  unfold Scan.inHand
  split
  · next l ws hl => exact if_neg (h l ws hl)
  · rfl

theorem inHand_of_line {p : Nat} {ws : List Word} (h : s.lineInHand = some (ringLine st p, ws)) :
    s.inHand st p = ws.drop (p % 8) := by
  unfold Scan.inHand
  rw [h]
  exact if_pos rfl

theorem need_of_none_in_hand (h : s.words.length < n) (hno : s.inHand st (s.pos + s.words.length) = []) :
    s.need st n next = .read s (ringLine st (s.pos + s.words.length)) := by
  unfold Scan.need
  simp only [hno, List.take_nil, List.append_nil]
  exact if_pos h

/-- The words that the line in hand gives are taken, and no more can be had from it (R177). -/
theorem need_takes {ws : List Word} (h : s.words.length < n)
    (hand : s.lineInHand = some (ringLine st (s.pos + s.words.length), ws)) (hlen : ws.length = 8) :
    s.need st n next = Scan.need st { s with
      words := s.words ++ (ws.drop ((s.pos + s.words.length) % 8)).take (n - s.words.length) } n next := by
  let t : Scan := { s with
    words := s.words ++ (ws.drop ((s.pos + s.words.length) % 8)).take (n - s.words.length) }
  have hneed : s.need st n next
      = if t.words.length < n then .read t (ringLine st (s.pos + t.words.length)) else next t := by
    unfold Scan.need
    simp only [inHand_of_line hand]
    rfl
  change _ = t.need st n next
  by_cases hfew : t.words.length < n
  · have htaken : t.words.length = s.words.length + (8 - (s.pos + s.words.length) % 8) := by
      have : t.words.length = s.words.length + min (n - s.words.length) (8 - (s.pos + s.words.length) % 8) := by
        simp only [t, List.length_append, List.length_take, List.length_drop, hlen]
      omega
    have hno : t.inHand st (t.pos + t.words.length) = [] := inHand_of_other fun l vs hl => by
      obtain ⟨rfl, _⟩ := Prod.mk.inj (Option.some.inj (hand.symm.trans hl))
      rw [ringLine_eq, ringLine_eq, htaken]
      change _ ≠ journalBase st + 32 + 32 * ((s.pos + _) / 8)
      omega
    rw [hneed, if_pos hfew, need_of_none_in_hand hfew hno]
  · rw [hneed, if_neg hfew, need_of_enough (not_lt.mp hfew)]

end

/-! ### What the first words say stands when more are read -/

section
variable {a : List Word} (b : List Word)

theorem recKindByte_append (h : 1 ≤ a.length) : recKindByte (a ++ b) = recKindByte a := by
  unfold recKindByte
  rw [List.getD_append _ _ _ _ h]

theorem recLength_append (h : 2 ≤ a.length) : recLength (a ++ b) = recLength a := by
  unfold recLength
  rw [List.getD_append _ _ _ _ h]

theorem recByte1_append (h : 1 ≤ a.length) : recByte1 (a ++ b) = recByte1 a := by
  unfold recByte1
  rw [List.getD_append _ _ _ _ h]

theorem recSeq_append (h : 3 ≤ a.length) : recSeq (a ++ b) = recSeq a := List.getD_append _ _ _ _ h

theorem lengthGood_append (ring pos : Nat) (k : RecKind) (h : 2 ≤ a.length) :
    lengthGood ring pos k (a ++ b) = lengthGood ring pos k a := by
  unfold lengthGood
  rw [recLength_append b h, recByte1_append b (by omega)]

theorem wordsToScan_append (k : RecKind) (h : 2 ≤ a.length) : wordsToScan k (a ++ b) = wordsToScan k a := by
  unfold wordsToScan
  rw [recLength_append b h]

end

/-! ### The words that the next test needs -/

section
variable {st : Straps} {s : Scan} {k : RecKind}

theorem move_at_length (hpos : 6 ≤ ringLength st - s.pos) (h1 : 1 ≤ s.words.length)
    (hk : kindOfCode (recKindByte s.words) = some k) : s.move st = s.need st 2 (scanLength st k) := by
  rw [move_eq hpos, need_of_enough h1]
  unfold scanKind
  rw [hk]

theorem move_at_kind (hpos : 6 ≤ ringLength st - s.pos) (h1 : 1 ≤ s.words.length)
    (hk : kindOfCode (recKindByte s.words) = none) : s.move st = .stop s .kind := by
  rw [move_eq hpos, need_of_enough h1]
  unfold scanKind
  rw [hk]

theorem move_after_length (hpos : 6 ≤ ringLength st - s.pos) (h2 : 2 ≤ s.words.length)
    (hk : kindOfCode (recKindByte s.words) = some k) : s.move st = scanLength st k s := by
  rw [move_at_length hpos (by omega) hk, need_of_enough h2]

theorem move_at_rest (hpos : 6 ≤ ringLength st - s.pos) (h2 : 2 ≤ s.words.length)
    (hk : kindOfCode (recKindByte s.words) = some k) (hl : lengthGood (ringLength st) s.pos k s.words = true) :
    s.move st = s.need st (wordsToScan k s.words) (scanRest st k) := by
  rw [move_after_length hpos h2 hk]
  unfold scanLength
  rw [hl]
  rfl

end

theorem wordsToScan_eq (k : RecKind) (ws : List Word) : wordsToScan k ws = if k = .pad then 6 else recLength ws := by
  cases k <;> rfl

/-- The length test of R177, by the kind. -/
def lengthTest (st : Straps) (s : Scan) (k : RecKind) (ws : List Word) : Prop :=
  match k with
  | .openRec | .commit | .done => recLength ws = 6 ∧ s.pos + 6 ≤ ringLength st
  | .before => 7 ≤ recLength ws ∧ recLength ws ≤ 14
      ∧ ((List.range 8).filter (recByte1 ws).getLsbD).length = recLength ws - 6 ∧ s.pos + recLength ws ≤ ringLength st
  | .pad => recLength ws = ringLength st - s.pos

theorem setSize_eq (m : WordSet) : setSize m = ((List.range 8).filter m.getLsbD).length := by
  unfold setSize setWords
  rw [← List.map_coe_finRange_eq_range, List.filter_map, List.length_map]
  rfl

theorem lengthTest_iff (st : Straps) (s : Scan) (k : RecKind) (ws : List Word) :
    lengthTest st s k ws ↔ lengthGood (ringLength st) s.pos k ws = true := by
  unfold lengthTest lengthGood
  cases k <;> simp only [Bool.and_eq_true, decide_eq_true_eq, setSize_eq, and_assoc]
  all_goals exact and_congr_right fun h => by rw [h]

/-- A scanner that needs `n` words is at the stage of its move that asks for them, and is there still when it has more. -/
theorem scanNeeds.stage {st : Straps} {s : Scan} {n : Nat} (h : scanNeeds st s n)
    (hlength : ∀ k, (.length, lengthTest st s k s.words) ∈ scanTests st s k s.words) :
    ∃ next, s.move st = s.need st n next
      ∧ ∀ more, Scan.move st { s with words := s.words ++ more } = Scan.need st { s with words := s.words ++ more } n next := by
  obtain ⟨hpos, _, hstage⟩ := h
  rcases hstage with rfl | ⟨k, hk, ⟨rfl, h1⟩ | ⟨h2, rfl, htest⟩⟩
  · exact ⟨scanKind st, move_eq hpos, fun _ => move_eq (s := { s with words := _ }) hpos⟩
  · have hkind := (kindOfCode_iff _ k).mpr hk
    refine ⟨scanLength st k, move_at_length hpos h1 hkind, fun more => ?_⟩
    have hmore : 1 ≤ (s.words ++ more).length := by simp; omega
    exact move_at_length (s := { s with words := s.words ++ more }) hpos hmore (by rwa [recKindByte_append more h1])
  · have hkind := (kindOfCode_iff _ k).mpr hk
    have hl := (lengthTest_iff st s k s.words).mp (htest _ (hlength k))
    rw [← wordsToScan_eq]
    refine ⟨scanRest st k, move_at_rest hpos h2 hkind hl, fun more => ?_⟩
    have hmore : 2 ≤ (s.words ++ more).length := by simp; omega
    have := move_at_rest (s := { s with words := s.words ++ more }) hpos hmore
      (by rwa [recKindByte_append more (by omega)]) (by rwa [lengthGood_append more _ _ k h2])
    rwa [wordsToScan_append more k h2] at this

theorem scanTests_length (st : Straps) (s : Scan) (k : RecKind) (ws : List Word) :
    (.length, lengthTest st s k ws) ∈ scanTests st s k ws := List.mem_cons_self

theorem scanTests_length_eq {st : Straps} {s : Scan} {k : RecKind} {ws : List Word} {test : Prop}
    (h : (.length, test) ∈ scanTests st s k ws) : test = lengthTest st s k ws := by
  rcases List.mem_cons.mp h with h | h
  · exact (Prod.mk.inj h).2
  · have hreason := List.mem_map_of_mem (f := Prod.fst) h
    exact absurd hreason (show StopReason.length ∉
      [StopReason.check, .sequence, .field, .address, .context, .closed, .link, .limit] by decide)

/-- The words are read as the tests need them (R177, log 20). -/
theorem move_needs {st : Straps} {s : Scan} {n : Nat} (h : scanNeeds st s n) :
    let p := s.pos + s.words.length
    ((∀ l ws, s.lineInHand = some (l, ws) → l ≠ ringLine st p) → s.move st = .read s (ringLine st p))
      ∧ ∀ ws, s.lineInHand = some (ringLine st p, ws) → ws.length = 8 →
        s.move st = Scan.move st { s with words := s.words ++ (ws.drop (p % 8)).take (n - s.words.length) } := by
  intro p
  obtain ⟨next, hmove, hmore⟩ := h.stage fun k => scanTests_length st s k s.words
  have hfew : s.words.length < n := h.2.1
  exact ⟨fun hno => hmove.trans (need_of_none_in_hand hfew (inHand_of_other hno)),
    fun ws hand hlen => hmove.trans ((need_takes hfew hand hlen).trans (hmore _).symm)⟩

end Sys2Proof.Machine
end

section
/-! The tests of the scanner, in their order, are those of R177, and the first that fails stops it. -/

namespace Sys2Proof.Machine

/-! ### The first test that fails -/

open Classical in
/-- The reason of the first test of the list that does not hold. -/
noncomputable def firstFailing : List (StopReason × Prop) → Option StopReason
  | [] => none
  | (why, test) :: rest => if test then firstFailing rest else some why

theorem firstFailing_cons {test : Prop} {b : Bool} (why : StopReason) (rest : List (StopReason × Prop))
    (h : test ↔ b = true) : firstFailing ((why, test) :: rest) = if !b then some why else firstFailing rest := by
  cases b with
  | false => exact if_neg fun ht => Bool.false_ne_true (h.mp ht)
  | true => exact if_pos (h.mpr rfl)

theorem firstFailing_of_all {tests : List (StopReason × Prop)} (h : ∀ x ∈ tests, x.2) : firstFailing tests = none := by
  induction tests with
  | nil => rfl
  | cons x rest ih =>
    exact (if_pos (h x List.mem_cons_self)).trans (ih fun y hy => h y (List.mem_cons_of_mem x hy))

theorem firstFailing_of_first {before after : List (StopReason × Prop)} {why : StopReason} {test : Prop}
    (h : ∀ x ∈ before, x.2) (hfails : ¬ test) : firstFailing (before ++ (why, test) :: after) = some why := by
  induction before with
  | nil => exact if_neg hfails
  | cons x rest ih =>
    exact (if_pos (h x List.mem_cons_self)).trans (ih fun y hy => h y (List.mem_cons_of_mem x hy))

/-! ### Each test -/

section
variable (st : Straps) (s : Scan) (k : RecKind) (ws : List Word)

theorem recordChecks_iff {ws : List Word} (h : ws ≠ []) :
    (ws.getD 0 0).extractLsb' 0 8 = crc8 ((wordBytes (ws.getD 0 0)).take 3 ++ (ws.drop 1).flatMap wordBytes)
      ↔ recordChecks ws = true := by
  cases ws with
  | nil => exact absurd rfl h
  | cons w rest => exact eq_comm.trans decide_eq_true_iff.symm

theorem toNat_eq_zero_iff (x : Word) : x.toNat = 0 ↔ x = 0 := BitVec.toNat_inj (y := 0#32)

theorem fieldsGood_iff :
    ((k = .pad → recCtxByte ws = 0 ∧ recByte1 ws = 0 ∧ recInst ws = 0 ∧ (recLine ws).toNat = 0 ∧ recLink ws = 0xFFFFFFFF)
      ∧ (k ≠ .pad → recInst ws ≠ 0) ∧ (k = .openRec ∨ k = .commit → recByte1 ws = 0)
      ∧ (k = .done → 2 ≤ (recByte1 ws).toNat ∧ (recByte1 ws).toNat ≤ 4)
      ∧ (k = .openRec ∨ k = .commit ∨ k = .done → (recLine ws).toNat = 0)
      ∧ (k = .openRec → recLink ws = 0xFFFFFFFF)) ↔ fieldsGood k ws = true := by
  unfold fieldsGood
  cases k <;> simp only [Bool.and_eq_true, decide_eq_true_eq] <;> simp [toNat_eq_zero_iff, Config.noLink, and_assoc]

theorem addressGood_iff :
    (k = .before → (recLine ws).toNat % 32 = 0 ∧ (recLine ws).toNat < capacity st ∧ (recLine ws).toNat < journalBase st)
      ↔ addressGood st k ws = true := by
  unfold addressGood
  cases k <;> simp [and_assoc]

/-- The record is one of an open instance: that of its context, if the numbers agree. -/
theorem openOf_iff (c : Ctx) (o : OpenInst) : s.openOf ws = some (c, o)
    ↔ ctxOfByte (recCtxByte ws) = some c ∧ s.openInst[c] = some o ∧ o.inst = recInst ws := by
  unfold Scan.openOf
  cases ctxOfByte (recCtxByte ws) with
  | none => simp
  | some e =>
    cases ho : s.openInst[e] with
    | none =>
      refine iff_of_false (by simp [ho]) fun ⟨h, hp, _⟩ => ?_
      obtain rfl := Option.some.inj h
      exact absurd (ho.symm.trans hp) (by simp)
    | some p =>
      by_cases hi : p.inst = recInst ws
      · simp only [ho, if_pos hi]
        constructor
        · rintro h
          obtain ⟨rfl, rfl⟩ := Prod.mk.inj (Option.some.inj h)
          exact ⟨rfl, ho, hi⟩
        · rintro ⟨h, hp, _⟩
          obtain rfl := Option.some.inj h
          rw [Option.some.inj (ho.symm.trans hp)]
      · simp only [ho, if_neg hi]
        refine iff_of_false (by simp) fun ⟨h, hp, ho'⟩ => hi ?_
        obtain rfl := Option.some.inj h
        rw [Option.some.inj (ho.symm.trans hp), ho']

theorem contextGood_iff :
    (k ≠ .pad → ∃ c : Ctx, (recCtxByte ws).toNat = c.val + 1 ∧ (k = .openRec → s.openInst[c] = none))
      ↔ s.contextGood k ws = true := by
  unfold Scan.contextGood
  simp only [← ctxOfByte_iff]
  cases k <;> cases ctxOfByte (recCtxByte ws) <;> simp

theorem notClosed_iff :
    (k ≠ .pad → ∀ (c : Ctx) n, (recCtxByte ws).toNat = c.val + 1 → s.closed[c] = some n → n.inst ≠ recInst ws)
      ↔ s.notClosed k ws = true := by
  unfold Scan.notClosed
  simp only [← ctxOfByte_iff]
  cases ctxOfByte (recCtxByte ws) with
  | none => cases k <;> simp
  | some c =>
    have hnote : (∀ (e : Ctx) n, some c = some e → s.closed[e] = some n → n.inst ≠ recInst ws)
        ↔ ∀ n, s.closed[c] = some n → n.inst ≠ recInst ws :=
      ⟨fun h n => h c n rfl, fun h e n he => Option.some.inj he ▸ h n⟩
    rw [hnote]
    cases k <;> cases hn : s.closed[c] <;> simp [show s.closed[c.val] = _ from hn]

/-- An open instance that the record follows. -/
theorem followed_iff (o : OpenInst) :
    ((∃ c : Ctx, (recCtxByte ws).toNat = c.val + 1 ∧ s.openInst[c] = some o) ∧ o.inst = recInst ws)
      ↔ ∃ c, s.openOf ws = some (c, o) := by
  simp only [openOf_iff, ← ctxOfByte_iff, ← and_assoc, exists_and_right]

theorem linkGood_iff :
    (k = .before ∨ k = .commit ∨ k = .done → ∀ o : OpenInst,
      (∃ c : Ctx, (recCtxByte ws).toNat = c.val + 1 ∧ s.openInst[c] = some o) ∧ o.inst = recInst ws →
      (recLink ws).toNat = o.lastSeen) ↔ s.linkGood k ws = true := by
  unfold Scan.linkGood
  simp only [followed_iff]
  cases s.openOf ws with
  | none => cases k <;> simp
  | some p => cases k <;> simp [Prod.ext_iff]

theorem limitGood_iff (ring : Nat) :
    let within := fun (unfinished : Nat) =>
      s.length + (if k = .pad then 0 else recLength ws) + 6 * unfinished ≤ ring - 14
    let closes := (k = .commit ∨ k = .done) ∧ ∃ o : OpenInst,
      (∃ c : Ctx, (recCtxByte ws).toNat = c.val + 1 ∧ s.openInst[c] = some o) ∧ o.inst = recInst ws
    ((k = .openRec → within (s.order.length + 1)) ∧ (closes → within (s.order.length - 1))
      ∧ (k ≠ .openRec → ¬ closes → within s.order.length)) ↔ s.limitGood ring k ws = true := by
  intro within closes
  have hlimit : s.limitGood ring k ws = true ↔ within (s.unfinishedAfter k ws) := by
    have : scannedWords k ws = if k = .pad then 0 else recLength ws := by cases k <;> rfl
    unfold Scan.limitGood
    rw [this]
    exact decide_eq_true_iff
  have hcloses : closes ↔ (k = .commit ∨ k = .done) ∧ ∃ p, s.openOf ws = some p := by
    simp only [closes, followed_iff, Prod.exists, exists_comm (α := OpenInst)]
  rw [hlimit, hcloses]
  unfold Scan.unfinishedAfter
  cases s.openOf ws with
  | none => cases k <;> simp
  | some p => cases k <;> simp

end

/-! ### The tests in their order -/

/-- The first of the tests 3 to 10 that fails is the scanner's. -/
theorem failure_eq (st : Straps) (s : Scan) (k : RecKind) {ws : List Word} (h : ws ≠ []) :
    firstFailing (scanTests st s k ws).tail = s.failure st k ws := by
  have hseq : recSeq ws = s.expected ↔ decide (recSeq ws = s.expected) = true := decide_eq_true_iff.symm
  unfold scanTests Scan.failure
  refine (firstFailing_cons _ _ (recordChecks_iff h)).trans ?_
  rw [firstFailing_cons _ _ hseq, firstFailing_cons _ _ (fieldsGood_iff k ws), firstFailing_cons _ _ (addressGood_iff st k ws),
    firstFailing_cons _ _ (contextGood_iff s k ws), firstFailing_cons _ _ (notClosed_iff s k ws),
    firstFailing_cons _ _ (linkGood_iff s k ws), firstFailing_cons _ _ (limitGood_iff s k ws (ringLength st))]
  simp only [Bool.not_eq_true', decide_eq_false_iff_not]
  rfl

/-- With the record's words read, the first test that fails stops the scan, and a record that passes all is taken (R177). -/
theorem move_tests {st : Straps} {s : Scan} {k : RecKind} (hpos : 6 ≤ ringLength st - s.pos) (h2 : 2 ≤ s.words.length)
    (hk : kindOfCode (recKindByte s.words) = some k) (hall : wordsToScan k s.words ≤ s.words.length) :
    s.move st = match firstFailing (scanTests st s k s.words) with
      | some why => .stop s why
      | none => .on (s.take (ringLength st) k s.words) := by
  have hne : s.words ≠ [] := List.length_pos_iff.mp (by omega)
  have hfirst : firstFailing (scanTests st s k s.words)
      = if !lengthGood (ringLength st) s.pos k s.words then some .length else s.failure st k s.words :=
    (firstFailing_cons _ _ (lengthTest_iff st s k s.words)).trans (by rw [← failure_eq st s k hne]; rfl)
  rw [move_after_length hpos h2 hk, hfirst]
  unfold scanLength
  rw [need_of_enough hall]
  cases lengthGood (ringLength st) s.pos k s.words <;> rfl

end Sys2Proof.Machine
end

section
/-! A record that passes every test is taken, and tracked by its kind (R178). -/

namespace Sys2Proof.Machine

section
variable {s : Scan} {k : RecKind} {ws : List Word} {c : Ctx} {o : OpenInst}

/-! ### What a record does to the tracking -/

theorem track_frame (s : Scan) (k : RecKind) (ws : List Word) : s.track k ws = { s with
    openInst := (s.track k ws).openInst, closed := (s.track k ws).closed, order := (s.track k ws).order } := by
  unfold Scan.track
  cases ctxOfByte (recCtxByte ws) with
  | none => cases k <;> rfl
  | some c => cases k <;> cases s.openOf ws <;> rfl

theorem track_pad : s.track .pad ws = s := by
  unfold Scan.track
  cases ctxOfByte (recCtxByte ws) <;> rfl

theorem track_open (hc : ctxOfByte (recCtxByte ws) = some c) : s.track .openRec ws = { s with
    openInst := s.openInst.set c.val (some { inst := recInst ws, lastSeen := s.pos }) c.isLt
    order := s.order ++ [c] } := by
  unfold Scan.track
  rw [hc]

theorem track_before (hc : ctxOfByte (recCtxByte ws) = some c) (ho : s.openOf ws = some (c, o)) :
    s.track .before ws = { s with openInst := s.openInst.set c.val (some { o with lastSeen := s.pos }) c.isLt } := by
  unfold Scan.track
  rw [hc, ho]

theorem track_before_other (h : s.openOf ws = none) : s.track .before ws = s := by
  unfold Scan.track
  rw [h]
  cases ctxOfByte (recCtxByte ws) <;> rfl

/-- The closed note that a record leaves. -/
def closingNote (k : RecKind) (ws : List Word) : ClosedNote := { inst := recInst ws, outcome := closingOutcome k ws }

theorem track_closing (hk : k = .commit ∨ k = .done) (hc : ctxOfByte (recCtxByte ws) = some c)
    (ho : s.openOf ws = some (c, o)) : s.track k ws = { s with
      closed := s.closed.set c.val (some (closingNote k ws)) c.isLt
      openInst := s.openInst.set c.val none c.isLt, order := s.order.filter fun x => decide (x ≠ c) } := by
  unfold Scan.track
  rw [hc, ho]
  rcases hk with rfl | rfl <;> rfl

theorem track_closing_other (hk : k = .commit ∨ k = .done) (hc : ctxOfByte (recCtxByte ws) = some c)
    (ho : s.openOf ws = none) : s.track k ws =
      { s with closed := s.closed.set c.val (some (closingNote k ws)) c.isLt } := by
  unfold Scan.track
  rw [hc, ho]
  rcases hk with rfl | rfl <;> rfl

theorem closingNote_eq (hk : k = .commit ∨ k = .done) : closingNote k ws =
    { inst := recInst ws
      outcome := if k = .commit then .committed else if recByte1 ws = 2 then .abandoned
        else if recByte1 ws = 3 then .revoked else .recovered } := by
  unfold closingNote closingOutcome outcomeOfCode
  rcases hk with rfl | rfl <;> rfl

/-- A record that follows no open instance of its context is of none. -/
theorem openOf_of_not_followed (hc : ctxOfByte (recCtxByte ws) = some c)
    (h : ¬ ∃ o, s.openInst[c] = some o ∧ o.inst = recInst ws) : s.openOf ws = none := by
  refine Option.eq_none_iff_forall_ne_some.mpr fun ⟨e, o⟩ ho => h ?_
  obtain ⟨he, hopen, hinst⟩ := (openOf_iff s ws e o).mp ho
  obtain rfl := Option.some.inj (hc.symm.trans he)
  exact ⟨o, hopen, hinst⟩

/-! ### The record taken -/

/-- What R178 says of the tracking for a record of context `c` that is no PAD, in a scanner `t` behind `s`. -/
def scanTracks (s : Scan) (k : RecKind) (ws : List Word) (c : Ctx) (t : Scan) : Prop :=
  let followed := ∃ o, s.openInst[c] = some o ∧ o.inst = recInst ws
  (∀ x, x ≠ c → t.openInst[x] = s.openInst[x] ∧ t.closed[x] = s.closed[x])
    ∧ (k = .openRec → t.openInst[c] = some { inst := recInst ws, lastSeen := s.pos } ∧ t.closed[c] = s.closed[c]
      ∧ t.order = s.order ++ [c])
    ∧ (k = .before → t.closed[c] = s.closed[c] ∧ t.order = s.order
      ∧ (followed → t.openInst[c] = some { inst := recInst ws, lastSeen := s.pos })
      ∧ (¬ followed → t.openInst[c] = s.openInst[c]))
    ∧ (k = .commit ∨ k = .done → t.closed[c] = some (closingNote k ws)
      ∧ (followed → t.openInst[c] = none ∧ t.order = s.order.filter fun x => decide (x ≠ c))
      ∧ (¬ followed → t.openInst[c] = s.openInst[c] ∧ t.order = s.order))

theorem ctx_set_same {α : Type} (v : Vector α 4) (x : α) : (v.set c.val x c.isLt)[c] = x := Vector.getElem_set_self _

theorem ctx_set_other {α : Type} (v : Vector α 4) (x : α) {e : Ctx} (h : e ≠ c) : (v.set c.val x c.isLt)[e] = v[e] :=
  Vector.getElem_set_ne _ _ fun hv => h (Fin.ext hv.symm)

theorem track_tracks (hc : ctxOfByte (recCtxByte ws) = some c) (hk : k ≠ .pad) : scanTracks s k ws c (s.track k ws) := by
  have hopen {o} (hf : s.openInst[c] = some o ∧ o.inst = recInst ws) : s.openOf ws = some (c, o) :=
    (openOf_iff s ws c o).mpr ⟨hc, hf.1, hf.2⟩
  unfold scanTracks
  cases k with
  | pad => exact absurd rfl hk
  | openRec =>
    rw [track_open hc]
    exact ⟨fun x hx => ⟨ctx_set_other _ _ hx, rfl⟩, fun _ => ⟨ctx_set_same _ _, rfl, rfl⟩, nofun, nofun⟩
  | before =>
    by_cases hf : ∃ o, s.openInst[c] = some o ∧ o.inst = recInst ws
    · obtain ⟨o, ho⟩ := hf
      rw [track_before hc (hopen ho), ← ho.2]
      exact ⟨fun x hx => ⟨ctx_set_other _ _ hx, rfl⟩, nofun,
        fun _ => ⟨rfl, rfl, fun _ => ctx_set_same _ _, fun hn => absurd ⟨o, ho.1, rfl⟩ hn⟩, nofun⟩
    · rw [track_before_other (openOf_of_not_followed hc hf)]
      exact ⟨fun _ _ => ⟨rfl, rfl⟩, nofun, fun _ => ⟨rfl, rfl, fun h => absurd h hf, fun _ => rfl⟩, nofun⟩
  | commit | done =>
    by_cases hf : ∃ o, s.openInst[c] = some o ∧ o.inst = recInst ws
    · obtain ⟨o, ho⟩ := hf
      rw [track_closing (by decide) hc (hopen ho)]
      exact ⟨fun x hx => ⟨ctx_set_other _ _ hx, ctx_set_other _ _ hx⟩, nofun, nofun,
        fun _ => ⟨ctx_set_same _ _, fun _ => ⟨ctx_set_same _ _, rfl⟩, fun hn => absurd ⟨o, ho⟩ hn⟩⟩
    · rw [track_closing_other (by decide) hc (openOf_of_not_followed hc hf)]
      exact ⟨fun x hx => ⟨rfl, ctx_set_other _ _ hx⟩, nofun, nofun,
        fun _ => ⟨ctx_set_same _ _, fun h => absurd h hf, fun _ => ⟨rfl, rfl⟩⟩⟩

theorem highestOf_eq (h : Option Word) (i : Word) : highestOf h i = match h with
    | none => some i
    | some x => if 1 ≤ (i - x).toNat ∧ (i - x).toNat < 2 ^ 31 then some i else some x := by
  unfold highestOf higher
  cases h with
  | none => rfl
  | some x => simp only [Bool.and_eq_true, decide_eq_true_eq]

theorem take_first_of_some {ring : Nat} {x : TailId} (h : s.first = some x) : (s.take ring k ws).first = some x := by
  unfold Scan.take
  rw [h]

theorem take_first_of_none {ring : Nat} (h : s.first = none) : (s.take ring k ws).first = headerIdentity ws := by
  unfold Scan.take
  rw [h]

theorem take_pos {ring : Nat} : (s.take ring k ws).pos
    = if k = .pad ∨ ring ≤ s.pos + recLength ws then 0 else s.pos + recLength ws := by
  unfold Scan.take ringAdvance
  by_cases hk : k = .pad
  · simp [hk]
  · simp [hk]

/-- The record of the words `ws`, of kind `k`, is taken (R178). -/
theorem take_takes (st : Straps) (s : Scan) (hk : kindOfCode (recKindByte ws) = some k) :
    scanTakes st s k ws (s.take (ringLength st) k ws) := by
  have hkind : kindCoded k (recKindByte ws) := (kindOfCode_iff _ k).mp hk
  have hscanned : scannedWords k ws = if k = .pad then 0 else recLength ws := by cases k <;> rfl
  have hfirst {t : TailId} (hn : s.first = none) (ht : headerNames ws t) :
      (s.take (ringLength st) k ws).first = some t := (take_first_of_none hn).trans ((headerIdentity_iff ws t).mpr ht)
  refine ⟨rfl, rfl, rfl, ?_, congrArg (s.length + ·) hscanned, ?_, take_pos, highestOf_eq _ _, fun x => take_first_of_some,
    fun hn hp => ?_, fun c hn hp hc => ?_, fun hp => ?_, fun c hc hp => ?_⟩
  · exact (congrArg Scan.lineInHand (track_frame s k ws) :)
  · by_cases hp : k = .pad
    · simp [Scan.take, hp]
    · simp [Scan.take, hp]
  · subst hp
    exact hfirst hn ⟨hkind, fun _ => rfl, fun h => absurd rfl h, rfl, rfl⟩
  · exact hfirst hn ⟨hkind, fun h => absurd h hp, fun _ => ⟨c, rfl, hc⟩, rfl, rfl⟩
  · subst hp
    have : s.track .pad ws = s := track_pad
    exact ⟨(congrArg Scan.openInst this :), (congrArg Scan.closed this :), (congrArg Scan.order this :)⟩
  · obtain ⟨hothers, hopen, hbefore, hclosing⟩ := track_tracks (s := s) ((ctxOfByte_iff _ c).mpr hc) hp
    refine ⟨hothers, hopen, hbefore, fun hk => ?_⟩
    obtain ⟨hnote, hrest⟩ := hclosing hk
    exact ⟨hnote.trans (congrArg some (closingNote_eq hk)), hrest⟩

end

end Sys2Proof.Machine
end

section
/-! The moves of the scanner: over the ring end, on to the next record, and the stops (R177). -/

namespace Sys2Proof.Machine

theorem run_next (st : Straps) (s : Scan) : s.run st 0 = .read s (ringLine st s.pos)
    ∧ ∀ n, (∀ t, s.move st = .on t → s.run st (n + 1) = t.run st n)
      ∧ (∀ t l, s.move st = .read t l → s.run st (n + 1) = .read t l)
      ∧ ∀ t why, s.move st = .stop t why → s.run st (n + 1) = .stop t why := by
  refine ⟨rfl, fun n => ⟨fun t h => ?_, fun t l h => ?_, fun t why h => ?_⟩⟩
  all_goals simp only [Scan.run, h]

theorem kindCoded_range {k : RecKind} {b : Byte} (h : kindCoded k b) : b ≠ 0 ∧ b.toNat < 6 := by
  cases k <;> obtain rfl := (show b = _ from h) <;> decide

theorem kindOfCode_none {b : Byte} (h : b = 0 ∨ 6 ≤ b.toNat) : kindOfCode b = none := by
  refine Option.eq_none_iff_forall_ne_some.mpr fun k hk => ?_
  obtain ⟨hne, hlt⟩ := kindCoded_range ((kindOfCode_iff b k).mp hk)
  rcases h with h | h
  · exact hne h
  · exact absurd hlt (not_lt.mpr h)

section
variable {st : Straps} {s : Scan} {k : RecKind}

theorem move_stops_at_length {test : Prop} (hpos : 6 ≤ ringLength st - s.pos) (h2 : 2 ≤ s.words.length)
    (hk : kindCoded k (recKindByte s.words)) (hmem : (.length, test) ∈ scanTests st s k s.words) (hfails : ¬ test) :
    s.move st = .stop s .length := by
  rw [move_after_length hpos h2 ((kindOfCode_iff _ k).mpr hk)]
  have hbad : ¬ lengthGood (ringLength st) s.pos k s.words = true := fun h =>
    hfails (scanTests_length_eq hmem ▸ (lengthTest_iff st s k s.words).mpr h)
  exact if_pos (by simp [hbad])

theorem move_tried (hpos : 6 ≤ ringLength st - s.pos) (h2 : 2 ≤ s.words.length) (hk : kindCoded k (recKindByte s.words))
    (hall : (if k = .pad then 6 else recLength s.words) ≤ s.words.length) :
    (∀ before why test after, scanTests st s k s.words = before ++ (why, test) :: after → (∀ x ∈ before, x.2) → ¬ test →
        s.move st = .stop s why)
      ∧ ((∀ x ∈ scanTests st s k s.words, x.2) → ∃ t, s.move st = .on t ∧ scanTakes st s k s.words t) := by
  have hkind := (kindOfCode_iff _ k).mpr hk
  have hmove := move_tests hpos h2 hkind ((wordsToScan_eq k s.words).symm ▸ hall)
  refine ⟨fun before why test after htests hbefore hfails => ?_, fun htests => ?_⟩
  · have hfirst : firstFailing (scanTests st s k s.words) = some why := htests ▸ firstFailing_of_first hbefore hfails
    rw [hmove, hfirst]
  · rw [hmove, firstFailing_of_all htests]
    exact ⟨_, rfl, take_takes st s hkind⟩

/-! ### A record that does not stand -/

theorem failure_none (h : s.failure st k s.words = none) :
    recordChecks s.words = true ∧ recSeq s.words = s.expected := by
  unfold Scan.failure at h
  by_cases hc : recordChecks s.words = true
  · by_cases hs : recSeq s.words = s.expected
    · exact ⟨hc, hs⟩
    · simp [hc, hs] at h
  · simp [hc] at h

/-- The words of `m` from ring position `p` on. -/
def Memory.ringWords (m : Memory) (st : Straps) (p n : Nat) : List Word :=
  (List.range n).map fun i => m.readWord (ringAddr st (p + i))

theorem ringWords_of_get {m : Memory} {p : Nat} {ws : List Word}
    (h : ∀ i, i < ws.length → ws[i]? = some (m.readWord (ringAddr st (p + i)))) : m.ringWords st p ws.length = ws := by
  refine List.ext_getElem (by simp [Memory.ringWords]) fun i _ hi => ?_
  have := h i hi
  rw [List.getElem?_eq_getElem hi] at this
  simpa [Memory.ringWords] using (Option.some.inj this).symm

theorem ringWords_take (m : Memory) (st : Straps) (p : Nat) {i n : Nat} (h : i ≤ n) :
    m.ringWords st p i = (m.ringWords st p n).take i := by
  unfold Memory.ringWords
  rw [← List.map_take, List.take_range, Nat.min_eq_left h]

/-- The words of a record that tests 1 to 4 pass are those of one that stands. -/
theorem recordStands_of_tests {m : Memory} {p : Nat} {seq : Word} {ws : List Word} (h6 : 6 ≤ ws.length)
    (hlen : ws.length = wordsToScan k ws) (hk : kindOfCode (recKindByte ws) = some k)
    (hwords : m.ringWords st p ws.length = ws) (hl : lengthGood (ringLength st) p k ws = true)
    (hc : recordChecks ws = true) (hs : recSeq ws = seq) : m.recordStands st p seq = true := by
  have hheader : m.ringWords st p 6 = ws.take 6 := hwords ▸ ringWords_take m st p h6
  have hcut : ws.take 6 ++ ws.drop 6 = ws := List.take_append_drop 6 ws
  have h6' : 6 ≤ (ws.take 6).length := by simp [h6]
  have hkind : recKindByte (ws.take 6) = recKindByte ws := by
    rw [← recKindByte_append (ws.drop 6) (by omega), hcut]
  have hseq : recSeq (ws.take 6) = recSeq ws := by rw [← recSeq_append (ws.drop 6) (by omega), hcut]
  have hgood : lengthGood (ringLength st) p k (ws.take 6) = lengthGood (ringLength st) p k ws := by
    rw [← lengthGood_append (ws.drop 6) _ _ k (by omega), hcut]
  have hscan : wordsToScan k (ws.take 6) = ws.length := by
    rw [← wordsToScan_append (ws.drop 6) k (by omega), hcut, hlen]
  have hstands : m.recordStands st p seq = match kindOfCode (recKindByte (m.ringWords st p 6)) with
      | none => false
      | some k => lengthGood (ringLength st) p k (m.ringWords st p 6)
          && recordChecks (m.ringWords st p (wordsToScan k (m.ringWords st p 6)))
          && decide (recSeq (m.ringWords st p 6) = seq) := rfl
  rw [hstands, hheader, hkind, hk]
  simp only [hgood, hscan, hwords, hl, hc, hseq, hs, decide_true, Bool.and_true]

/-- A record that does not stand, as a cut append leaves it, stops the scan. -/
theorem move_stops_unless_stands {m : Memory} (hstands : m.recordStands st s.pos s.expected = false)
    (hpos : 6 ≤ ringLength st - s.pos) (hk : kindOfCode (recKindByte s.words) = some k) (h6 : 6 ≤ s.words.length)
    (hlen : s.words.length = wordsToScan k s.words)
    (hwords : ∀ i, i < s.words.length → s.words[i]? = some (m.readWord (ringAddr st (s.pos + i)))) :
    ∃ why, s.move st = .stop s why := by
  have hmove := move_after_length hpos (by omega) hk
  by_cases hl : lengthGood (ringLength st) s.pos k s.words = true
  · cases hf : s.failure st k s.words with
    | some why =>
      refine ⟨why, (move_at_rest hpos (by omega) hk hl).trans ((need_of_enough hlen.ge).trans ?_)⟩
      unfold scanRest
      rw [hf]
    | none =>
      obtain ⟨hc, hs⟩ := failure_none hf
      have := recordStands_of_tests h6 hlen hk (ringWords_of_get hwords) hl hc hs
      exact absurd (hstands.symm.trans this) Bool.false_ne_true
  · exact ⟨.length, hmove.trans (if_pos (by simp [hl]))⟩

end

end Sys2Proof.Machine
end

section
/-! A ring line of the scan is read: the scanner goes on, or stops and its findings are taken (R62, R177, R179, R180). -/

namespace Sys2Proof.Machine

/-! ### The scanner goes on -/

/-- The scanner `s` waits for the ring line that holds its next word (R177). -/
def Device.scanReads (d : Device) (s : Scan) : Device :=
  Device.request { d with part := { d.part with scan := some s } }
    (.read .scan (ringLine d.part.straps (s.pos + s.words.length)))

section
variable {d : Device} {s t : Scan}

theorem scanOn_read {l : Nat} (h : s.run d.part.straps 64 = .read t l) : d.scanOn s = d.scanReads t := by
  unfold Device.scanOn
  rw [h]
  rfl

theorem scanOn_stop {why : StopReason} (h : s.run d.part.straps 64 = .stop t why) : d.scanOn s = d.endScan t why := by
  unfold Device.scanOn
  rw [h]

theorem scanReads_frame (d : Device) (s : Scan) : unchangedBut [.part, .port] d (d.scanReads s) := by
  intro b hb; cases b <;> first | rfl | exact absurd (by decide) hb

/-- In SCAN what ends the command is the grant moment, so the scanner waits for the line it requested. -/
theorem scanReads_settle (hs : d.part.state = .starting) (hp : d.part.phase = some .scan) :
    unchangedBut [.part, .engine, .port] d (d.scanReads s).settle
      ∧ (d.scanReads s).settle.part = { d.part with scan := some s }
      ∧ .read .scan (ringLine d.part.straps (s.pos + s.words.length)) ∈ (d.scanReads s).settle.port.asked := by
  have hphase : (d.scanReads s).part.phase ≠ some .undo := fun h => absurd (hp.symm.trans h) (by decide)
  rw [settle_before_undo (d := d.scanReads s) hs hphase]
  exact ⟨(scanReads_frame d s).comp (grant_frame _) (by decide) (by decide), grant_frame _ .part (by decide),
    (mem_asked_grant (by simp)).mpr (asked_request _ _)⟩

end

/-! ### The scan stops -/

/-- The scanner's findings, before the rollback engine selects (R62, R179, R180, R183). -/
def Device.scanned (d : Device) (s : Scan) (why : StopReason) : Device :=
  { d with
    journal := d.journal.afterScan s
    contexts := Vector.ofFn fun i : Fin 4 => (d.contexts[i]).afterScan (s.openInst[i]) (s.closed[i])
    rollback := { d.rollback with list := s.listed }
    part := { d.part with
      phase := some .undo, scan := none
      report := { d.part.report with reason := why, stopPos := s.pos, scanned := s.taken, found := s.order.length } } }

theorem nextAfterScan_eq (anchored : Word) (highest : Option Word) : nextAfterScan anchored highest =
    match highest with
    | none => anchored
    | some h => if (h - anchored).toNat < 2 ^ 31 then h + 1 else anchored := by
  unfold nextAfterScan higher
  cases highest with
  | none => rfl
  | some h =>
    have hiff : h = anchored ∨ (decide (1 ≤ (h - anchored).toNat) && decide ((h - anchored).toNat < 2 ^ 31)) = true
        ↔ (h - anchored).toNat < 2 ^ 31 := by
      have hzero : h = anchored ↔ (h - anchored).toNat = 0 := by
        rw [toNat_eq_zero_iff]
        bv_omega
      rw [hzero, Bool.and_eq_true, decide_eq_true_iff, decide_eq_true_iff]
      omega
    exact if_congr hiff rfl rfl

theorem afterScan_eq (j : Journal) (s : Scan) : j.afterScan s = { j with
    head := s.pos, nextSeq := s.expected, reserved := 6 * s.order.length, endGap := s.gap, debt := 0
    tailRec := if j.liveTail = s.pos then none else s.first
    nextInst := match s.highest with
      | none => j.nextInst
      | some h => if (h - j.nextInst).toNat < 2 ^ 31 then h + 1 else j.nextInst } := by
  unfold Journal.afterScan
  rw [nextAfterScan_eq]
  rfl

section
variable {s : Scan}

theorem listed_ctx (s : Scan) : s.listed.map (·.ctx) = s.order := by
  unfold Scan.listed
  rw [List.map_map]
  exact List.map_id _

theorem listed_entry {e : ListEntry} (h : e ∈ s.listed) : e.outcome = .recovered
    ∧ ∀ o, s.openInst[e.ctx] = some o → e.inst = o.inst := by
  obtain ⟨c, _, rfl⟩ := List.mem_map.mp h
  refine ⟨rfl, fun o ho => ?_⟩
  change (match s.openInst[c] with | some o => o.inst | none => 0) = o.inst
  rw [show s.openInst[c] = some o from ho]

theorem listed_nil : s.listed = [] ↔ s.order = [] := List.map_eq_nil_iff

variable {d : Device} {why : StopReason}

theorem scanned_frame (d : Device) (s : Scan) (why : StopReason) :
    unchangedBut [.part, .contexts, .journal, .rollback] d (d.scanned s why) := by
  intro b hb; cases b <;> first | rfl | exact absurd (by decide) hb

theorem scanned_ctx (c : Ctx) : (d.scanned s why).ctx c = (d.ctx c).afterScan (s.openInst[c]) (s.closed[c]) := by
  simp [Device.ctx, Device.scanned]

theorem select_list (d : Device) : d.select.rollback.list = d.rollback.list := by
  unfold Device.select
  split
  · split <;> rfl
  · rfl

/-- The findings stand when the command ends, but for the selection and the closing anchor write. -/
theorem endScan_settle_frame (d : Device) (s : Scan) (why : StopReason) :
    unchangedBut [.journal, .engine, .rollback, .port] (d.scanned s why) (d.endScan s why).settle :=
  (select_frame (d.scanned s why)).comp (settle_frame _) (by decide) (by decide)

theorem endScan_list : (d.endScan s why).settle.rollback.list = s.listed :=
  (congrArg (·.list) (settle_frame (d.endScan s why) .rollback (by decide))).trans (select_list (d.scanned s why))

/-- With nothing listed the closing anchor write is issued at once (R181). -/
theorem endScan_journal (hs : d.part.state = .starting) : (d.endScan s why).settle.journal =
    if s.order = [] ∧ (d.journal.afterScan s).pass = none ∧ (d.journal.afterScan s).passAgain = false
      ∧ (d.journal.afterScan s).anchor = none
    then { d.journal.afterScan s with anchor := some { tail := (d.journal.afterScan s).liveTail, why := .closing } }
    else d.journal.afterScan s := by
  have hpart : (d.endScan s why).part = (d.scanned s why).part := select_frame (d.scanned s why) .part (by decide)
  have hjournal : (d.endScan s why).journal = d.journal.afterScan s :=
    select_frame (d.scanned s why) .journal (by decide)
  have hlist : (d.endScan s why).rollback.list = [] ↔ s.order = [] :=
    (Eq.congr_left (select_list (d.scanned s why))).trans listed_nil
  have hstate : (d.scanned s why).part.state = .starting := hs
  rw [settle_journal, hjournal]
  unfold Device.closed
  rw [hpart]
  exact if_congr ⟨fun ⟨_, _, hl, h⟩ => ⟨hlist.mp hl, h⟩, fun ⟨ho, h⟩ => ⟨hstate, rfl, hlist.mpr ho, h⟩⟩ rfl rfl

theorem endScan_anchorAsked : anchorAsked d.journal (d.endScan s why).settle :=
  anchorAsked_of_issued fun h => (anchorIssued_of_none (e := d.endScan s why)
    ((congrArg (·.anchor) (select_frame (d.scanned s why) .journal (by decide))).trans h)).settle

theorem endScan_walkChosen :
    walkChosen { d.rollback with list := (d.endScan s why).settle.rollback.list } d (d.endScan s why).settle := by
  have hchosen : walkChosen { d.rollback with list := s.listed } d (d.endScan s why) :=
    (select_walkChosen (d.scanned s why)).of_part rfl
  have hf := settle_frame (d.endScan s why)
  rw [endScan_list]
  exact hchosen.mono (hf .rollback (by decide))
    (fun c => by rw [Device.ctx_congr (hf .contexts (by decide))]; exact ⟨rfl, rfl⟩)
    (by rw [hf .part (by decide)]) fun _ hl => mem_asked_settle (by simp) hl

theorem endScan_ctx (c : Ctx) :
    (d.endScan s why).settle.ctx c = (d.ctx c).afterScan (s.openInst[c]) (s.closed[c]) :=
  (Device.ctx_congr (endScan_settle_frame d s why .contexts (by decide)) c).trans (scanned_ctx c)

end

/-! ### The command -/

section
variable {s : State} {line : Nat}

theorem exec_scanLineReadComplete (h : s.inFlight (.read .scan line) line) : exec .scanLineReadComplete s
    = .next (s.withDev (s.dev.landed.scanLine line (s.dev.dram.readLine line)).settle) := by
  change execScanLineReadComplete s = _
  unfold execScanLineReadComplete
  rw [readDone_of_inFlight h]
  rfl

theorem scanLine_ignored {d : Device} {ws : List Word} (h : d.part.state ≠ .starting) : d.scanLine line ws = d := by
  unfold Device.scanLine
  split
  · next hs _ => exact absurd hs h
  · rfl

theorem scanLine_scans {d : Device} {sc : Scan} {ws : List Word} (hs : d.part.state = .starting)
    (hsc : d.part.scan = some sc) : d.scanLine line ws = d.scanOn { sc with lineInHand := some (line, ws) } := by
  unfold Device.scanLine
  rw [hs, hsc]

end

/-- What the end of the scan leaves of the blocks (R62, R179, R180, R183). -/
theorem scanEnds (d : Device) (s : Scan) (why : StopReason) (hs : d.part.state = .starting) :
    let e := (d.endScan s why).settle
    unchangedBut [.part, .contexts, .journal, .rollback, .engine, .port] d e
      ∧ e.part = (d.scanned s why).part
      ∧ e.journal = (if s.order = [] ∧ (d.journal.afterScan s).pass = none ∧ (d.journal.afterScan s).passAgain = false
          ∧ (d.journal.afterScan s).anchor = none
        then { d.journal.afterScan s with anchor := some { tail := (d.journal.afterScan s).liveTail, why := .closing } }
        else d.journal.afterScan s)
      ∧ anchorAsked d.journal e
      ∧ e.rollback.list.map (·.ctx) = s.order ∧ (∀ x ∈ e.rollback.list, x.outcome = .recovered)
      ∧ (∀ x ∈ e.rollback.list, ∀ o, s.openInst[x.ctx] = some o → x.inst = o.inst)
      ∧ walkChosen { d.rollback with list := e.rollback.list } d e
      ∧ ∀ c : Ctx,
        (∀ o, s.openInst[c] = some o → (e.ctx c).state = .undoing ∧ (e.ctx c).inst = o.inst
          ∧ (e.ctx c).newest = some o.lastSeen ∧ (e.ctx c).owned = 0 ∧ (e.ctx c).queued = 0)
        ∧ (∀ n, s.openInst[c] = none → s.closed[c] = some n →
          e.ctx c = { d.ctx c with inst := n.inst, outcome := n.outcome })
        ∧ (s.openInst[c] = none → s.closed[c] = none → e.ctx c = d.ctx c) := by
  intro e
  have hlist : e.rollback.list = s.listed := endScan_list
  refine ⟨(scanned_frame d s why).comp (endScan_settle_frame d s why) (by decide) (by decide),
    endScan_settle_frame d s why .part (by decide), endScan_journal hs, endScan_anchorAsked,
    by rw [hlist, listed_ctx], fun x hx => (listed_entry (hlist ▸ hx)).1, fun x hx => (listed_entry (hlist ▸ hx)).2,
    endScan_walkChosen, fun c => ?_⟩
  have hctx : e.ctx c = (d.ctx c).afterScan (s.openInst[c]) (s.closed[c]) := endScan_ctx c
  refine ⟨fun o ho => ?_, fun n ho hn => ?_, fun ho hn => ?_⟩
  · rw [hctx, ho]
    exact ⟨rfl, rfl, rfl, rfl, rfl⟩
  · rw [hctx, ho, hn]
    rfl
  · rw [hctx, ho, hn]
    rfl

/-- Settles O53: a move is the four stages in turn, its tests the list of R177, its taking R178; the events are the run of
moves, and the findings of its stop. -/
theorem scanLineRead : Obligations.ScanLineRead := by
  refine ⟨fun s line hfly hhold => ?_, fun s line sc hfly hs hsc hphase => ⟨fun s1 l hmove => ?_, fun s1 why hmove => ?_⟩,
    run_next, fun st sc n h => move_needs h, fun st sc h => move_gap h,
    fun st sc hpos h1 hk => move_at_kind hpos h1 (kindOfCode_none hk),
    fun st sc k hpos h2 hk test hmem hfails => move_stops_at_length hpos h2 hk hmem hfails,
    fun st sc k hpos h2 hk hall => move_tried hpos h2 hk hall,
    fun m st sc k hstands hpos hk h6 hlen hwords => move_stops_unless_stands hstands hpos hk h6 hlen hwords⟩
  · have hstate : s.dev.landed.part.state ≠ .starting := fun h => absurd (hhold.symm.trans h) (by decide)
    exact (exec_scanLineReadComplete hfly).trans
      (next_withDev_congr s (congrArg Device.settle (scanLine_ignored hstate)))
  · have hx := exec_scanLineReadComplete hfly
    rw [scanLine_scans (d := s.dev.landed) hs hsc, scanOn_read (d := s.dev.landed) hmove] at hx
    obtain ⟨hf, hpart, hasked⟩ := scanReads_settle (d := s.dev.landed) (s := s1) hs hphase
    exact ⟨_, hx, (landed_frame s.dev).comp hf (by decide) (by decide), hpart, hasked⟩
  · have hx := exec_scanLineReadComplete hfly
    rw [scanLine_scans (d := s.dev.landed) hs hsc, scanOn_stop (d := s.dev.landed) hmove] at hx
    obtain ⟨hf, hpart, hj, hasked, hctx, hout, hinst, hwalk, hctxs⟩ := scanEnds s.dev.landed s1 why hs
    refine ⟨_, hx, (landed_frame s.dev).comp hf (by decide) (by decide), hpart, ?_, hasked, hctx, hout, hinst,
      hwalk.of_part rfl, hctxs⟩
    rw [hj, afterScan_eq]
    rfl

end Sys2Proof.Machine
end

section
/-! The anchor line is read: the start ends, or the scan begins (R122, R175, R182). -/

namespace Sys2Proof.Machine

/-! ### The first move of a scan -/

theorem ringLength_header (st : Straps) : 6 ≤ ringLength st := by
  have hpow : 1 ≤ 4 ^ st.jsel.toNat := Nat.one_le_pow _ _ (by decide)
  have hsize : journalSize st = 0x40000 * 4 ^ st.jsel.toNat := rfl
  unfold ringLength
  omega

section
variable {st : Straps} {s : Scan}

/-- A scanner with nothing read requests the line of its position. -/
theorem move_of_nothing_read (hpos : 6 ≤ ringLength st - s.pos) (hline : s.lineInHand = none) (hwords : s.words = []) :
    s.move st = .read s (ringLine st s.pos) := by
  have hread := need_of_none_in_hand (st := st) (s := s) (n := 1) (next := scanKind st) (by simp [hwords])
    (inHand_of_other fun l ws h => absurd (hline.symm.trans h) (by simp))
  rw [hwords] at hread
  exact (move_eq hpos).trans hread

/-- The scanner that begins at the anchored tail `tail`, or behind the ring end where no header fits before it (R176). -/
def Scan.begun (st : Straps) (tail : Nat) (expected : Word) : Scan :=
  if 6 ≤ ringLength st - tail then .initial tail expected
  else { Scan.initial tail expected with gap := ringLength st - tail, pos := 0, words := [] }

theorem run_initial (st : Straps) (tail : Nat) (seq : Word) : (Scan.initial tail seq).run st 64
    = .read (Scan.begun st tail seq) (ringLine st (Scan.begun st tail seq).pos) := by
  unfold Scan.begun
  split
  · next h => exact (((run_next st (Scan.initial tail seq)).2 63).2.1 _ _) (move_of_nothing_read h rfl rfl)
  · next h =>
    let t : Scan := { Scan.initial tail seq with gap := ringLength st - tail, pos := 0, words := [] }
    have hgap : (Scan.initial tail seq).move st = .on t := move_gap (not_le.mp h)
    have hread : t.move st = .read t (ringLine st t.pos) := move_of_nothing_read (ringLength_header st) rfl rfl
    exact (((run_next st (Scan.initial tail seq)).2 63).1 _ hgap).trans (((run_next st t).2 62).2.1 _ _ hread)

theorem begun_words (st : Straps) (tail : Nat) (seq : Word) : (Scan.begun st tail seq).words = [] := by
  unfold Scan.begun
  split <;> rfl

/-- What the scanner knows as it begins. -/
theorem begun_starts (st : Straps) (tail : Nat) (seq : Word) : let s := Scan.begun st tail seq
    s.expected = seq ∧ s.taken = 0 ∧ s.length = 0 ∧ s.order = [] ∧ (6 ≤ ringLength st - tail → s.pos = tail ∧ s.gap = 0)
      ∧ (ringLength st - tail < 6 → s.pos = 0 ∧ s.gap = ringLength st - tail) := by
  by_cases h : 6 ≤ ringLength st - tail
  · have hs : Scan.begun st tail seq = .initial tail seq := if_pos h
    rw [hs]
    exact ⟨rfl, rfl, rfl, rfl, fun _ => ⟨rfl, rfl⟩, fun hlt => absurd h (not_le.mpr hlt)⟩
  · have hs : Scan.begun st tail seq
        = { Scan.initial tail seq with gap := ringLength st - tail, pos := 0, words := [] } := if_neg h
    rw [hs]
    exact ⟨rfl, rfl, rfl, rfl, fun hle => absurd hle h, fun _ => ⟨rfl, rfl⟩⟩

end

/-! ### What the anchor line says -/

section
variable {d : Device} {ws : List Word}

theorem anchorCondition_blank {ring : Nat} (h : ws.getD 0 0 ≠ 0x5A3C0A17) : anchorCondition ring ws = .blank := if_pos h

theorem anchorCondition_damaged {ring : Nat} (h : ws.getD 0 0 = 0x5A3C0A17)
    (hbad : ¬ (ws.getD 7 0).extractLsb' 0 8 = crc8 ((ws.take 7).flatMap wordBytes) ∨ (ws.getD 1 0).toNat ≠ ring
      ∨ ring ≤ (ws.getD 2 0).toNat) : anchorCondition ring ws = .damaged := by
  unfold anchorCondition
  refine (if_neg (not_not.mpr h)).trans (if_neg ?_)
  rw [decide_eq_true_iff]
  rintro ⟨hcrc, hring, htail⟩
  rcases hbad with hbad | hbad | hbad
  · exact hbad hcrc
  · exact hbad hring
  · omega

theorem setCondition_blank (h : anchorCondition d.ring ws = .blank) :
    d.setCondition ws = { d with journal := { d.journal with cond := .blank } } := by
  unfold Device.setCondition
  rw [h]

theorem setCondition_damaged (h : anchorCondition d.ring ws = .damaged) : d.setCondition ws = { d with
    journal := { d.journal with cond := .damaged }, mgmt := { d.mgmt with causes := d.mgmt.causes ||| 16#7 } } := by
  unfold Device.setCondition
  rw [h]
  rfl

/-! ### The two ends of ANCHOR -/

/-- The report has the condition that the journal controller has. -/
def Device.condReported (d : Device) : Device :=
  { d with part := { d.part with report := { d.part.report with cond := d.journal.cond } } }

theorem anchorRead_ends (hs : d.part.state = .starting) (hp : d.part.phase = some .anchor)
    (hc : (d.setCondition ws).journal.cond ≠ .valid) : d.anchorRead ws = (d.setCondition ws).condReported.enterRunning :=
  (if_pos ⟨hs, hp⟩).trans (if_neg hc)

theorem anchorRead_scans (hs : d.part.state = .starting) (hp : d.part.phase = some .anchor)
    (hc : (d.setCondition ws).journal.cond = .valid) : d.anchorRead ws = Device.scanOn
      { (d.setCondition ws).condReported with part := { (d.setCondition ws).condReported.part with phase := some .scan } }
      (Scan.initial (d.setCondition ws).journal.liveTail (d.setCondition ws).journal.nextSeq) :=
  (if_pos ⟨hs, hp⟩).trans (if_pos hc)

/-- A start that finds the journal not VALID ends in ANCHOR (R182). -/
theorem enterRunning_settle (hc : d.journal.cond ≠ .valid) :
    unchangedBut [.part, .mgmt, .engine, .port] d d.enterRunning.settle
      ∧ d.enterRunning.settle.journal = d.journal
      ∧ d.enterRunning.settle.part = { d.part with
          state := .running, phase := none, report := { d.part.report with complete := true } }
      ∧ d.enterRunning.settle.mgmt = { d.mgmt with causes := d.mgmt.causes ||| 8#7 } := by
  have hpart := enterRunning_part d
  have hmgmt := (enterRunning_mgmt d).trans
    (congrArg (fun x => ({ d.mgmt with causes := x } : Management)) (if_neg fun h => hc h.1))
  have hf := grant_frame d.enterRunning
  rw [settle_of_running (congrArg (·.state) hpart)]
  exact ⟨(enterRunning_frame d).comp hf (by decide) (by decide),
    Eq.trans (hf .journal (by decide)) (enterRunning_journal d), Eq.trans (hf .part (by decide)) hpart,
    Eq.trans (hf .mgmt (by decide)) hmgmt⟩

theorem exec_anchorReadComplete {s : State} {line : Nat} (h : s.inFlight (.read .anchor line) line) :
    exec .anchorReadComplete s = .next (s.withDev (s.dev.landed.anchorRead (s.dev.dram.readLine line)).settle) := by
  change execAnchorReadComplete s = _
  unfold execAnchorReadComplete
  rw [readDone_of_inFlight h]
  rfl

end

/-! ### The command -/

/-- The block when a start that has read the anchor line has ended with the condition `cond` (R182, R183). -/
def anchorEnded (s d : Device) (cond : JournalCondition) (raised : BitVec 7) : Prop :=
  unchangedBut [.journal, .part, .mgmt, .engine, .port] s d ∧ d.journal = { s.journal with cond := cond }
    ∧ d.part = { s.part with
        state := .running, phase := none, report := { s.part.report with cond := cond, complete := true } }
    ∧ d.mgmt = { s.mgmt with causes := s.mgmt.causes ||| raised }

section
variable {d : Device} {ws : List Word}

theorem condReported_frame (d : Device) : unchangedBut [.part] d d.condReported := by
  intro b hb; cases b <;> first | rfl | exact absurd (by decide) hb

theorem anchorRead_blank (hs : d.part.state = .starting) (hp : d.part.phase = some .anchor)
    (h : anchorCondition d.ring ws = .blank) : anchorEnded d (d.anchorRead ws).settle .blank 8#7 := by
  let x : Device := { d with journal := { d.journal with cond := .blank } }
  have hx : d.setCondition ws = x := setCondition_blank h
  have hcond : x.journal.cond ≠ .valid := show JournalCondition.blank ≠ .valid by decide
  have hread : d.anchorRead ws = x.condReported.enterRunning := by
    rw [anchorRead_ends hs hp (by rw [hx]; exact hcond), hx]
  obtain ⟨hf, hj, hpart, hmgmt⟩ := enterRunning_settle (d := x.condReported) hcond
  rw [hread]
  exact ⟨((journal_frame d _).comp (condReported_frame x) (by decide) (by decide) : unchangedBut [.journal, .part] d _).comp hf
    (by decide) (by decide), hj, hpart, hmgmt⟩

theorem anchorRead_damaged (hs : d.part.state = .starting) (hp : d.part.phase = some .anchor)
    (h : anchorCondition d.ring ws = .damaged) : anchorEnded d (d.anchorRead ws).settle .damaged 24#7 := by
  let x : Device := { d with
    journal := { d.journal with cond := .damaged }, mgmt := { d.mgmt with causes := d.mgmt.causes ||| 16#7 } }
  have hx : d.setCondition ws = x := setCondition_damaged h
  have hcond : x.journal.cond ≠ .valid := show JournalCondition.damaged ≠ .valid by decide
  have hread : d.anchorRead ws = x.condReported.enterRunning := by
    rw [anchorRead_ends hs hp (by rw [hx]; exact hcond), hx]
  obtain ⟨hf, hj, hpart, hmgmt⟩ := enterRunning_settle (d := x.condReported) hcond
  have hraised : unchangedBut [.journal, .mgmt] d x := by
    intro b hb; cases b <;> first | rfl | exact absurd (by decide) hb
  have hcauses : d.mgmt.causes ||| 16#7 ||| 8#7 = d.mgmt.causes ||| 24#7 := BitVec.or_assoc _ _ _
  rw [hread]
  exact ⟨(hraised.comp (condReported_frame x) (by decide) (by decide) : unchangedBut [.journal, .mgmt, .part] d _).comp hf
    (by decide) (by decide), hj, hpart,
    hmgmt.trans (congrArg (fun c => ({ d.mgmt with causes := c } : Management)) hcauses)⟩

/-- A VALID anchor line sets the pointers, and the scan begins at the anchored tail (R122, R175, R176). -/
theorem anchorRead_valid (hs : d.part.state = .starting) (hp : d.part.phase = some .anchor)
    (h : anchorCondition d.ring ws = .valid) :
    let tail := (ws.getD 2 0).toNat
    let sc := Scan.begun d.part.straps tail (ws.getD 3 0)
    let e := (d.anchorRead ws).settle
    unchangedBut [.journal, .part, .engine, .port] d e
      ∧ e.journal = { d.journal with
          cond := .valid, head := tail, liveTail := tail, anchoredTail := tail, nextSeq := ws.getD 3 0
          nextInst := ws.getD 4 0 }
      ∧ e.part = { d.part with
          phase := some .scan, scan := some sc, report := { d.part.report with cond := .valid } }
      ∧ .read .scan (ringLine d.part.straps sc.pos) ∈ e.port.asked := by
  intro tail sc e
  let x : Device := { d with
    journal := { d.journal with
      cond := .valid, head := tail, liveTail := tail, anchoredTail := tail, nextSeq := ws.getD 3 0
      nextInst := ws.getD 4 0 }
    part := { d.part with phase := some .scan, report := { d.part.report with cond := .valid } } }
  have hset := setCondition_valid h
  have hread : d.anchorRead ws = x.scanReads sc := by
    rw [anchorRead_scans hs hp (by rw [hset]), hset]
    exact scanOn_read (d := x) (run_initial d.part.straps tail (ws.getD 3 0))
  have hx : unchangedBut [.journal, .part] d x := by
    intro b hb; cases b <;> first | rfl | exact absurd (by decide) hb
  obtain ⟨hf, hpart, hasked⟩ := scanReads_settle (d := x) (s := sc) hs rfl
  have he : e = (x.scanReads sc).settle := congrArg Device.settle hread
  rw [begun_words] at hasked
  rw [he]
  exact ⟨hx.comp hf (by decide) (by decide), hf .journal (by decide), hpart, hasked⟩

end

/-- Settles O52: BLANK and DAMAGED are the two ends of ANCHOR, and VALID is the first move of the scanner. -/
theorem anchorLineRead : Obligations.AnchorLineRead := by
  refine ⟨fun s line hfly hhold => ?_, fun s line hfly hs hp => ?_⟩
  · have hstate : s.dev.landed.part.state ≠ .starting := fun h => absurd (hhold.symm.trans h) (by decide)
    have hkept : ∀ ws, s.dev.landed.anchorRead ws = s.dev.landed := fun ws => if_neg fun h => hstate h.1
    exact (exec_anchorReadComplete hfly).trans (next_withDev_congr s (congrArg Device.settle (hkept _)))
  · have hx := exec_anchorReadComplete hfly
    have hl := landed_frame s.dev
    refine ⟨fun hsig => ?_, fun hsig hbad => ?_, fun hsig hgood hring htail => ?_⟩
    · obtain ⟨hf, hrest⟩ := anchorRead_blank (d := s.dev.landed) hs hp (anchorCondition_blank hsig)
      exact ⟨_, hx, hl.comp hf (by decide) (by decide), hrest⟩
    · obtain ⟨hf, hrest⟩ := anchorRead_damaged (d := s.dev.landed) hs hp (anchorCondition_damaged hsig hbad)
      exact ⟨_, hx, hl.comp hf (by decide) (by decide), hrest⟩
    · obtain ⟨hf, hj, hpart, hasked⟩ := anchorRead_valid (d := s.dev.landed) hs hp
        ((anchorCondition_valid _ _).mpr ⟨hsig, hgood, hring, htail⟩)
      obtain ⟨hexp, htaken, hlen, horder, hfits, hskips⟩ := begun_starts s.dev.part.straps
        ((s.dev.dram.readLine line).getD 2 0).toNat ((s.dev.dram.readLine line).getD 3 0)
      exact ⟨_, _, hx, hl.comp hf (by decide) (by decide), hj, hpart, hexp, htaken, hlen, horder, hfits, hskips, hasked⟩

end Sys2Proof.Machine
end
